-- ==== Sys2Proof/Word.lean ====
section
/-! DEFINITION. The word types of the MS5803_05 CORE, by the widths of 00_scope.md R7 and 30_encoding.md R43. -/

namespace Sys2Proof

/-- A command word, `cmd[31:0]` (R43). -/
abbrev Word := BitVec 32

/-- A calibration coefficient word, u16 (R13). -/
abbrev Coef := BitVec 16

/-- A raw ADC code, u24 (R15). -/
abbrev RawCode := BitVec 24

/-- A message byte of the checksum (R61), or a byte on the host's wire (R34). -/
abbrev Byte := BitVec 8

/-- The coefficient register file `C[0..7]` (R13). -/
abbrev Coeffs := Vector Coef 8

end Sys2Proof
end

