-- ==== Sys2Proof/Syntax.lean ====
section
/-! DEFINITION. The command set: exactly the seven constructors of 30_encoding.md R45 and R52. -/

namespace Sys2Proof

/-- A command of the block (R45). The operands have the types of 30_encoding.md R44, so that every term is a command
the encoding can spell: an operand out of its range cannot be written (R50). -/
inductive Instr where
  /-- `NOP` (40_load_commands.md R53). -/
  | nop
  /-- `CLR` (R54). -/
  | clr
  /-- `LDC i, w` (R55). -/
  | ldc (idx : BitVec 3) (w : Coef)
  /-- `LDD1 d` (R56). -/
  | ldd1 (d : RawCode)
  /-- `LDD2 d` (R57). -/
  | ldd2 (d : RawCode)
  /-- `CRCV` (41_checksum_validator.md R59). -/
  | crcv
  /-- `CONV` (42_compensation_engine.md R71). -/
  | conv
  deriving DecidableEq, Repr

end Sys2Proof
end

