-- ==== Sys2Proof/Decode.lean ====
section
/-! DEFINITION. The decoder, the match-and-mask table of 30_encoding.md R45 total over all 32-bit words, and the encoder. -/

namespace Sys2Proof

/-- Why a word spells no command, by the cases of R46. -/
inductive Illegal where
  /-- `OP` in `0x7` to `0xF`. -/
  | opcode
  /-- `OP` in `0x0`, `0x1`, `0x5`, `0x6` with any of bits 27:0 set. -/
  | reservedBits
  /-- `OP` = `0x2` with bit 27 set. -/
  | indexBit27
  /-- `OP` = `0x2` with any of bits 23:16 set. -/
  | wordBits23to16
  /-- `OP` = `0x3` or `0x4` with any of bits 27:24 set. -/
  | codeBits27to24
  deriving DecidableEq, Repr

/-- `OP`, `cmd[31:28]` (R43). -/
def fieldOp (cmd : Word) : BitVec 4 := cmd.extractLsb' 28 4

/-- `i`, `cmd[26:24]` (R44). -/
def fieldIdx (cmd : Word) : BitVec 3 := cmd.extractLsb' 24 3

/-- `w`, `cmd[15:0]` (R44). -/
def fieldWord (cmd : Word) : Coef := cmd.extractLsb' 0 16

/-- `d`, `cmd[23:0]` (R44). -/
def fieldCode (cmd : Word) : RawCode := cmd.extractLsb' 0 24

/-- One row of the opcode map (R45), with the reading of its free fields. -/
structure OpcodeRow where
  mask : Word
  bits : Word
  read : Word → Instr

/-- The seven rows of R45. -/
def opcodeRows : List OpcodeRow :=
  [ { mask := 0xFFFFFFFF, bits := 0x00000000, read := fun _ => .nop },
    { mask := 0xFFFFFFFF, bits := 0x10000000, read := fun _ => .clr },
    { mask := 0xF8FF0000, bits := 0x20000000, read := fun cmd => .ldc (fieldIdx cmd) (fieldWord cmd) },
    { mask := 0xFF000000, bits := 0x30000000, read := fun cmd => .ldd1 (fieldCode cmd) },
    { mask := 0xFF000000, bits := 0x40000000, read := fun cmd => .ldd2 (fieldCode cmd) },
    { mask := 0xFFFFFFFF, bits := 0x50000000, read := fun _ => .crcv },
    { mask := 0xFFFFFFFF, bits := 0x60000000, read := fun _ => .conv } ]

/-- "A word `cmd` spells a command exactly when `(cmd & mask) == match` for one row" (R45). -/
def OpcodeRow.spells (r : OpcodeRow) (cmd : Word) : Bool := cmd &&& r.mask == r.bits

/-- Two rows no word spells together: they fix some common bit differently. -/
def OpcodeRow.disjoint (a b : OpcodeRow) : Bool := a.mask &&& b.mask &&& (a.bits ^^^ b.bits) != 0

/-- The case of R46 that a word matching no row falls under. -/
def illegalCase (cmd : Word) : Illegal :=
  let op := fieldOp cmd
  if 7 ≤ op.toNat then .opcode
  else if op = 2 then (if cmd.getLsbD 27 then .indexBit27 else .wordBits23to16)
  else if op = 3 ∨ op = 4 then .codeBits27to24
  else .reservedBits

/-- Decoding, total over all words (R49): the row the word matches, or why it matches none. -/
def decode (cmd : Word) : Except Illegal Instr :=
  match opcodeRows.find? (·.spells cmd) with
  | some r => .ok (r.read cmd)
  | none => .error (illegalCase cmd)

/-- The word of a command (R45, R50): `LDC i, w` is `0x20000000 | (i << 24) | w`, and so on. -/
def encode : Instr → Word
  | .nop => 0x00000000
  | .clr => 0x10000000
  | .ldc idx w => 0x20000000 ||| (idx.setWidth 32 <<< 24) ||| w.setWidth 32
  | .ldd1 d => 0x30000000 ||| d.setWidth 32
  | .ldd2 d => 0x40000000 ||| d.setWidth 32
  | .crcv => 0x50000000
  | .conv => 0x60000000

/-- The command word whose low `nbits` bits are those of `w`, the bits above them zero. A command is one word of 32 bits
(R43, R48), numbered from its least significant bit as the opcode table numbers it; the port carries words, so no byte
order enters. -/
def tableWord (nbits w : Nat) : Word := BitVec.ofNat 32 (w % 2 ^ nbits)

/-- What the decoder reads from a word of the opcode table. -/
def decodeTableWord (nbits w : Nat) : Option Instr :=
  match decode (tableWord nbits w) with
  | .ok i => some i
  | .error _ => none

end Sys2Proof
end

