-- ==== Sys2Proof/Config.lean ====
section
/-! DEFINITION. What an instance of the block fixes (00_scope.md R6) and the values the spec leaves free. -/

namespace Sys2Proof

/-- The two legal values of `CRC_FIELD_MASK` (R6, 92_eei_decisions.md D10): the checksum field of word 7 is its low
nibble (`0x000F`) or its low byte (`0x00FF`). -/
inductive CrcField where
  | nibble
  | byte
  deriving DecidableEq, Repr

/-- The data parameters of an instance (R6). They are no architectural state (10_state.md R25): nothing changes them
(70_reset_and_hazards.md R110). Held beside the state, log 3. -/
structure Params where
  /-- `CRC_FIELD_MASK`. -/
  crcField : CrcField
  /-- `VLT_EN` = 1: the very-low-temperature step runs (42_compensation_engine.md R82). -/
  vltEn : Bool
  deriving DecidableEq, Repr

/-- The output ports of 10_state.md R26 that show architectural state. -/
inductive OutPort where
  | status | crcCalc | crcEmb | temp | p | d1 | d2 | cData
  deriving DecidableEq, Repr

/-- The spec's defaults: `CRC_FIELD_MASK` = `0x000F`, `VLT_EN` = 0 (R6). -/
def Config.defaultParams : Params := { crcField := .nibble, vltEn := false }

/-- `vlt_term` (R6, R82): a total function from signed 32-bit `TEMP1` to signed 64-bit. The spec gives it no formula
("do not guess"), so it is free. Read only when `VLT_EN` = 1. Log 4. -/
opaque Config.vltTerm : BitVec 32 → BitVec 64

/-- FREE VALUE: what `CONV` writes to `P` when `VLT_EN` = 1 and the supplied `vlt_term` drives an intermediate out of
signed 64 bits, where the spec states no result: a function of what `comp` reads (R92). Never reached with `VLT_EN` = 0 (R90). DESIGN CHOICE, log 5. -/
opaque Config.convOverflow (d1 d2 : RawCode) (c1 c2 c3 c4 c5 c6 : Coef) : BitVec 32

/-- FREE VALUE: `LAT_LOAD` less one (70_reset_and_hazards.md R118: open, at least 1). Log 2. -/
opaque Config.latLoadLessOne : Nat

/-- FREE VALUE: `LAT_CRCV` less one (R118). Log 2. -/
opaque Config.latCrcvLessOne : Nat

/-- FREE VALUE: `LAT_CONV` less one (R118). Log 2. -/
opaque Config.latConvLessOne : Nat

/-- FREE VALUE: after how many cycles of the `n`-th command the output `o` switches from the state before the command to
the state after it (70_reset_and_hazards.md R116: not specified, one switch per output). Log 8. -/
opaque Config.switchAfter (o : OutPort) (n : Nat) : Nat

end Sys2Proof
end

