-- ==== Sys2Proof/Machine/Operands.lean ====
section
/-! DEFINITION. Operands and the arithmetic notation of 00_scope.md R8 and R9: register reads, unsigned and signed values,
division toward zero, narrowing. -/

namespace Sys2Proof.Machine

/-- `C[i]`; 3 bits name exactly the 8 registers (20_memory.md R31). -/
def coefAt (cs : Coeffs) (idx : BitVec 3) : Coef := cs[idx.toNat]'idx.isLt

/-- `C[i] <- w` (R10). -/
def setCoef (cs : Coeffs) (idx : BitVec 3) (w : Coef) : Coeffs := cs.set idx.toNat w idx.isLt

/-- An unsigned value as a mathematical integer: `zext` of R8 before exact arithmetic (R9). -/
def uint {n : Nat} (v : BitVec n) : Int := (v.toNat : Int)

/-- `tdiv(n, d)`, the quotient rounded toward zero, for `d > 0` (R9). -/
def tdiv (n d : Int) : Int := if 0 ≤ n then n / d else -((-n) / d)

/-- The low 32 bits of a two's-complement value, `trunc_32` (R8). -/
def trunc32 (v : Int) : BitVec 32 := BitVec.ofInt 32 v

/-- The value is a signed 64-bit integer, s64 (R8). -/
def fitsS64 (v : Int) : Bool := decide (-2 ^ 63 ≤ v) && decide (v < 2 ^ 63)

/-- `v[15:8]` of a word (R36). -/
def highByte (w : Coef) : Byte := w.extractLsb' 8 8

/-- `v[7:0]` of a word (R36). -/
def lowByte (w : Coef) : Byte := w.extractLsb' 0 8

end Sys2Proof.Machine
end

