-- ==== Sys2Proof/Machine/State.lean ====
section
/-! DEFINITION. The architectural state (10_state.md section 1), the host's inputs, the outcomes of a step, and reset. -/

namespace Sys2Proof.Machine

/-- What the host drives on the input ports of 10_state.md R26 in one handshake cycle, that is a cycle in which no command
is in progress. `clk` is the step itself. -/
structure PortIn where
  /-- `rst`, active high (70_reset_and_hazards.md R109). -/
  rst : Bool
  /-- `cmd_valid`: the host presents a command. -/
  cmdValid : Bool
  /-- `cmd`, the command word. -/
  cmd : Word
  /-- `c_sel`: which coefficient `c_data` shows; no effect on the state. -/
  cSel : BitVec 3
  deriving DecidableEq, Repr

/-- The state of the block: the 267 bits of 10_state.md section 1, then two fields of the model's own. -/
structure State where
  /-- `C[0..7]` (R13). -/
  coef : Coeffs
  /-- `LOADED[7:0]` (R14). -/
  loaded : BitVec 8
  /-- `D1`, last raw pressure code (R15). -/
  d1 : RawCode
  /-- `D2`, last raw temperature code (R15). -/
  d2 : RawCode
  /-- `D1V` (R16). -/
  d1v : Bool
  /-- `D2V` (R16). -/
  d2v : Bool
  /-- `CRC_CALC` (R17). -/
  crcCalc : BitVec 4
  /-- `CRC_EMB` (R17). -/
  crcEmb : BitVec 8
  /-- `CRC_DONE` (R18). -/
  crcDone : Bool
  /-- `VALID` (R18). -/
  valid : Bool
  /-- `TEMP`, two's complement, hundredths of a degree Celsius (R19). -/
  temp : BitVec 32
  /-- `P`, two's complement, hundredths of a millibar (R19). -/
  p : BitVec 32
  /-- `CONV_DONE` (R20). -/
  convDone : Bool
  /-- `ERR_SEQ`, sticky (R21). -/
  errSeq : Bool
  /-- `ERR_ILL`, sticky (R21). -/
  errIll : Bool
  /-- The model's own: the parameters of the instance (00_scope.md R6), which nothing changes. Log 3. -/
  params : Params
  /-- The model's own: what the host drives from now on, the next cycle first. Log 1. -/
  input : List PortIn
  deriving DecidableEq, Repr

/-- No step faults: "no stuck state" (70_reset_and_hazards.md R120), and the two errors of 60_exceptions.md R95 and R96 are
next states. The type has no constructor, so nothing raises one. -/
inductive Fault where
  deriving DecidableEq, Repr

/-- Why a command has no meaning. -/
inductive Refusal where
  /-- An instruction not modelled yet, raised by its own arm of `exec` and by nothing else; safe. No arm raises it: all seven
  commands have their meaning. -/
  | notModelled (mnemonic : String)
  deriving DecidableEq, Repr

/-- The state after reset: every register and every flag 0 (R28). The parameters are at the defaults of 00_scope.md R6 and
the host has presented nothing. -/
def State.reset : State where
  coef := Vector.replicate 8 0
  loaded := 0
  d1 := 0
  d2 := 0
  d1v := false
  d2v := false
  crcCalc := 0
  crcEmb := 0
  crcDone := false
  valid := false
  temp := 0
  p := 0
  convDone := false
  errSeq := false
  errIll := false
  params := Config.defaultParams
  input := []

end Sys2Proof.Machine
end

