-- ==== Sys2Proof/Machine/Flags.lean ====
section
/-! DEFINITION. The status word (10_state.md R23), the preconditions of 60_exceptions.md R97, and the output ports (R26). -/

namespace Sys2Proof.Machine

/-- One flag as a bit. -/
def flagBit (b : Bool) : BitVec 1 := BitVec.ofBool b

/-- `STATUS` (R23): bits 15:8 `LOADED`, bit 7 reads 0, then `ERR_ILL`, `ERR_SEQ`, `D2V`, `D1V`, `CONV_DONE`, `CRC_DONE`, and
`VALID` in bit 0. -/
def status (s : State) : BitVec 16 :=
  s.loaded ++ 0#1 ++ flagBit s.errIll ++ flagBit s.errSeq ++ flagBit s.d2v ++ flagBit s.d1v ++
    flagBit s.convDone ++ flagBit s.crcDone ++ flagBit s.valid

/-- `LDC` is accepted while the set is not validated (R97, 40_load_commands.md R55). -/
def ldcAllowed (s : State) : Bool := !s.valid

/-- `CRCV` is accepted when all eight words are loaded (R97, 41_checksum_validator.md R60). -/
def crcvAllowed (s : State) : Bool := s.loaded == 0xFF

/-- `CONV` is accepted when the set is validated and both raw codes are loaded (R97, 42_compensation_engine.md R72). -/
def convAllowed (s : State) : Bool := s.valid && s.d1v && s.d2v

/-- The named status condition ChecksumMismatch (60_exceptions.md R98): a status, no error. -/
def checksumMismatch (s : State) : Bool := s.crcDone && !s.valid

/-- The output ports of 10_state.md R26. -/
structure PortOut where
  cmdReady : Bool
  status : BitVec 16
  crcCalc : BitVec 4
  crcEmb : BitVec 8
  temp : BitVec 32
  p : BitVec 32
  d1 : RawCode
  d2 : RawCode
  cData : Coef
  deriving DecidableEq, Repr

/-- The outputs between commands (R26): every port drives the register's content (92_eei_decisions.md D20, log 7), `c_data`
the coefficient `c_sel` names; `cmd_ready` is 0 while `rst` is 1 (70_reset_and_hazards.md R109). -/
def outputs (pin : PortIn) (s : State) : PortOut where
  cmdReady := !pin.rst
  status := status s
  crcCalc := s.crcCalc
  crcEmb := s.crcEmb
  temp := s.temp
  p := s.p
  d1 := s.d1
  d2 := s.d2
  cData := coefAt s.coef pin.cSel

end Sys2Proof.Machine
end

