-- ==== Sys2Proof/Machine/Ops.lean ====
section
/-! DEFINITION. The named operations over the registers: what a command that is not refused writes (10_state.md R27), the
two errors of 60_exceptions.md R95 and R96, and reset. -/

namespace Sys2Proof.Machine

/-- What every step answers with. -/
abbrev Result := Host.Outcome State Fault Refusal

/-- `C[i] <- w`, `LOADED[i] <- 1`, `CRC_DONE <- 0` (40_load_commands.md R55). -/
def writeCoef (idx : BitVec 3) (w : Coef) (s : State) : State :=
  { s with
    coef := setCoef s.coef idx w
    loaded := s.loaded ||| (1#8 <<< idx.toNat)
    crcDone := false }

/-- `D1 <- d`, `D1V <- 1`, `CONV_DONE <- 0` (R56). -/
def writeD1 (d : RawCode) (s : State) : State := { s with d1 := d, d1v := true, convDone := false }

/-- `D2 <- d`, `D2V <- 1`, `CONV_DONE <- 0` (R57). -/
def writeD2 (d : RawCode) (s : State) : State := { s with d2 := d, d2v := true, convDone := false }

/-- `CRC_CALC`, `CRC_EMB`, `VALID <- (zext_8(CRC_CALC) == CRC_EMB)`, `CRC_DONE <- 1` (41_checksum_validator.md R59, R66). -/
def writeChecksum (computed : BitVec 4) (emb : BitVec 8) (s : State) : State :=
  { s with crcCalc := computed, crcEmb := emb, valid := computed.setWidth 8 == emb, crcDone := true }

/-- `TEMP`, `P`, `CONV_DONE <- 1` (42_compensation_engine.md R71). -/
def writeReading (t p : BitVec 32) (s : State) : State := { s with temp := t, p := p, convDone := true }

/-- `CLR`: every register and flag 0 but `ERR_SEQ` and `ERR_ILL` (40_load_commands.md R54). -/
def clearAll (s : State) : State :=
  { s with
    coef := Vector.replicate 8 0
    loaded := 0
    d1 := 0
    d2 := 0
    d1v := false
    d2v := false
    crcCalc := 0
    crcEmb := 0
    crcDone := false
    valid := false
    temp := 0
    p := 0
    convDone := false }

/-- `raise SeqError`: `ERR_SEQ <- 1`, nothing else (60_exceptions.md R96, R102). -/
def raiseSeqError (s : State) : State := { s with errSeq := true }

/-- `raise IllegalCommand`: `ERR_ILL <- 1`, nothing else; the word is not stored (60_exceptions.md R95, R102). -/
def raiseIllegal (s : State) : State := { s with errIll := true }

/-- The event `rst` = 1 (70_reset_and_hazards.md R109): the reset state of 10_state.md R28. The parameters are not affected
(R110); what the host drives next is its own. -/
def resetBlock (s : State) : State := { State.reset with params := s.params, input := s.input }

/-- The host's next cycle is consumed; `rest` is what it drives afterwards (20_memory.md R41). -/
def setInput (rest : List PortIn) (s : State) : State := { s with input := rest }

/-- A command either performs all its writes or, refused, the one write of `ERR_SEQ` (00_scope.md R10, 40_load_commands.md
R58, 60_exceptions.md R101). There is nothing to return from: the block is ready for the next command (R103). -/
def guarded (allowed : Bool) (done s : State) : Result :=
  if allowed then .next done else .next (raiseSeqError s)

end Sys2Proof.Machine
end

