-- ==== Sys2Proof/Machine/Checksum.lean ====
section
/-! DEFINITION. The checksum validator (41_checksum_validator.md): the function `crc4` and the command `CRCV`. -/

namespace Sys2Proof.Machine

/-- `CRC_FIELD_MASK` (00_scope.md R6). -/
def crcFieldMask : CrcField → Coef
  | .nibble => 0x000F
  | .byte => 0x00FF

/-- The two message bytes of a word, the high byte first (R61, 20_memory.md R36). -/
def wordBytes (w : Coef) : List Byte := [highByte w, lowByte w]

/-- Word 7 with its checksum field zeroed, a copy: `C[7]` itself is not written (R61, R67). -/
def maskedWord7 (f : CrcField) (cs : Coeffs) : Coef := cs[7] &&& ~~~(crcFieldMask f)

/-- The 16 bytes of the message (R61). -/
def crcMessage (f : CrcField) (cs : Coeffs) : List Byte :=
  wordBytes cs[0] ++ wordBytes cs[1] ++ wordBytes cs[2] ++ wordBytes cs[3] ++ wordBytes cs[4] ++ wordBytes cs[5] ++
    wordBytes cs[6] ++ wordBytes (maskedWord7 f cs)

/-- One shift of the register: left by one, a 0 entering, `0x3000` exclusive-ored in when bit 15 was 1 before (R63). The
mechanics are the spec's, from general knowledge: UNVERIFIED, log 6. -/
def shiftBit (r : BitVec 16) : BitVec 16 :=
  if r.getLsbD 15 then (r <<< 1) ^^^ 0x3000 else r <<< 1

/-- `n` shifts. -/
def shiftBits : Nat → BitVec 16 → BitVec 16
  | 0, r => r
  | n + 1, r => shiftBits n (shiftBit r)

/-- `step_byte` (R63): the byte into the low 8 bits, then 8 shifts. -/
def stepByte (r : BitVec 16) (b : Byte) : BitVec 16 := shiftBits 8 (r ^^^ b.setWidth 16)

/-- `n_rem` after the whole message, from the seed 0 (R64). -/
def crcRegister (f : CrcField) (cs : Coeffs) : BitVec 16 := (crcMessage f cs).foldl stepByte 0

/-- `crc4` (R64): bits 15:12 of the register as it stands after the last shift (R65, 90_conflicts.md C2). -/
def crc4 (f : CrcField) (cs : Coeffs) : BitVec 4 := (crcRegister f cs).extractLsb' 12 4

/-- The embedded checksum `C[7] & CRC_FIELD_MASK`, held in 8 bits (R62). -/
def embedded (f : CrcField) (cs : Coeffs) : BitVec 8 := (cs[7] &&& crcFieldMask f).setWidth 8

/-- `CRCV` (R59): refused unless `LOADED` = `0xFF` (R60). A mismatch is no error: `VALID` = 0 with `CRC_DONE` = 1 (R66,
60_exceptions.md R98). -/
def execCrcv (s : State) : Result :=
  guarded (crcvAllowed s) (writeChecksum (crc4 s.params.crcField s.coef) (embedded s.params.crcField s.coef) s) s

end Sys2Proof.Machine
end

