-- ==== Sys2Proof/Machine/Compensation.lean ====
section
/-! DEFINITION. The fixed-point compensation engine (42_compensation_engine.md): one function per step of the algorithm, in
exact integers (R89), the function `comp`, and the command `CONV`. The constants are those of R73. -/

namespace Sys2Proof.Machine

/-- Step 1, `dT = d2 − C[5] × 256` (R74). -/
def compDT (d2 : RawCode) (cs : Coeffs) : Int := uint d2 - uint cs[5] * 256

/-- Step 2, the numerator `dT × C[6]` (R75). -/
def compN1 (dT : Int) (cs : Coeffs) : Int := dT * uint cs[6]

/-- Step 2, the first-order temperature `2000 + n1 / 2^23` (R75). -/
def compTemp1 (n1 : Int) : Int := 2000 + tdiv n1 8388608

/-- Step 3, the branch: taken on the uncorrected `TEMP1 < 2000` (R76). -/
def compLow (temp1 : Int) : Bool := decide (temp1 < 2000)

/-- Step 3, `T2 = 3 × dT² / 2^33`, 0 in the else branch (R77, R80). -/
def compT2 (dT temp1 : Int) : Int := if compLow temp1 then tdiv (3 * (dT * dT)) 8589934592 else 0

/-- Step 3, `OFF2 = 3 × (TEMP1 − 2000)² / 8`, 0 in the else branch (R78, R80, R81). -/
def compOff2 (temp1 : Int) : Int :=
  if compLow temp1 then tdiv (3 * ((temp1 - 2000) * (temp1 - 2000))) 8 else 0

/-- Step 3, the very-low-temperature term, 0 unless `VLT_EN` = 1 and `TEMP1 < −1500` (R82; the placement is the spec's
placeholder, log 4). -/
def compVlt (vltEn : Bool) (temp1 : Int) : Int :=
  if vltEn && decide (temp1 < -1500) then (Config.vltTerm (trunc32 temp1)).toInt else 0

/-- Step 3, `SENS2 = 7 × (TEMP1 − 2000)² / 8`, 0 in the else branch (R79, R80), with the term of R82. -/
def compSens2 (vltEn : Bool) (temp1 : Int) : Int :=
  if compLow temp1 then tdiv (7 * ((temp1 - 2000) * (temp1 - 2000))) 8 + compVlt vltEn temp1 else 0

/-- Step 4, `OFF1 = C[2] × 262144 + (C[4] × dT) / 32` (R83). -/
def compOff1 (dT : Int) (cs : Coeffs) : Int := uint cs[2] * 262144 + tdiv (uint cs[4] * dT) 32

/-- Step 4, `SENS1 = C[1] × 131072 + (C[3] × dT) / 128` (R84). -/
def compSens1 (dT : Int) (cs : Coeffs) : Int := uint cs[1] * 131072 + tdiv (uint cs[3] * dT) 128

/-- Step 6, `q1 = num / 2^21` (R86). -/
def compQ1 (num : Int) : Int := tdiv num 2097152

/-- Step 6, `p = (q1 − OFF) / 2^15` (R86). -/
def compP (diff : Int) : Int := tdiv diff 32768

/-- Every named value of R89, for one pair of raw codes and one coefficient set. `CONV` keeps none of them but `temp` and
`p` (10_state.md R24). -/
structure CompTrace where
  dT : Int
  n1 : Int
  temp1 : Int
  t2 : Int
  off2 : Int
  sens2 : Int
  off1 : Int
  sens1 : Int
  temp : Int
  off : Int
  sens : Int
  num : Int
  q1 : Int
  diff : Int
  p : Int
  deriving DecidableEq, Repr

/-- `comp` (R89), with the optional step of R82. Reads `C[1]` to `C[6]` only (R94 f). -/
def comp (vltEn : Bool) (d1 d2 : RawCode) (cs : Coeffs) : CompTrace :=
  let dT := compDT d2 cs
  let n1 := compN1 dT cs
  let temp1 := compTemp1 n1
  let t2 := compT2 dT temp1
  let off2 := compOff2 temp1
  let sens2 := compSens2 vltEn temp1
  let off1 := compOff1 dT cs
  let sens1 := compSens1 dT cs
  let temp := temp1 - t2
  let off := off1 - off2
  let sens := sens1 - sens2
  let num := uint d1 * sens
  let q1 := compQ1 num
  let diff := q1 - off
  let p := compP diff
  { dT, n1, temp1, t2, off2, sens2, off1, sens1, temp, off, sens, num, q1, diff, p }

/-- Every value the term of R82 enters is a signed 64-bit integer, the width R9 and R86 hold it in. With `VLT_EN` = 0 this
always holds (R90). -/
def compFits (t : CompTrace) : Bool :=
  fitsS64 t.sens2 && fitsS64 t.sens && fitsS64 t.num && fitsS64 t.q1 && fitsS64 t.diff

/-- What `CONV` writes to `TEMP` (R87). -/
def readingTemp (pr : Params) (d1 d2 : RawCode) (cs : Coeffs) : BitVec 32 := trunc32 (comp pr.vltEn d1 d2 cs).temp

/-- What `CONV` writes to `P`: `trunc_32(p)` (R87). Where the supplied `vlt_term` drives a value out of signed 64 bits the
spec states no result, and the register takes a free value (log 5). -/
def readingP (pr : Params) (d1 d2 : RawCode) (cs : Coeffs) : BitVec 32 :=
  if compFits (comp pr.vltEn d1 d2 cs) then trunc32 (comp pr.vltEn d1 d2 cs).p
  else Config.convOverflow d1 d2 cs[1] cs[2] cs[3] cs[4] cs[5] cs[6]

/-- `CONV` (R71): refused unless `VALID`, `D1V` and `D2V` are 1 (R72). -/
def execConv (s : State) : Result :=
  guarded (convAllowed s) (writeReading (readingTemp s.params s.d1 s.d2 s.coef) (readingP s.params s.d1 s.d2 s.coef) s) s

end Sys2Proof.Machine
end

