-- ==== Sys2Proof/Machine/Load.lean ====
section
/-! DEFINITION. The housekeeping and load commands (40_load_commands.md): `NOP`, `CLR`, `LDC`, `LDD1`, `LDD2`. -/

namespace Sys2Proof.Machine

/-- `NOP` (R53): no write. -/
def execNop (s : State) : Result := .next s

/-- `CLR` (R54): never refused. -/
def execClr (s : State) : Result := .next (clearAll s)

/-- `LDC i, w` (R55): refused while `VALID` = 1. -/
def execLdc (idx : BitVec 3) (w : Coef) (s : State) : Result :=
  guarded (ldcAllowed s) (writeCoef idx w s) s

/-- `LDD1 d` (R56): never refused. -/
def execLdd1 (d : RawCode) (s : State) : Result := .next (writeD1 d s)

/-- `LDD2 d` (R57): never refused. -/
def execLdd2 (d : RawCode) (s : State) : Result := .next (writeD2 d s)

end Sys2Proof.Machine
end

