-- ==== Sys2Proof/Machine/Dispatch.lean ====
section
/-! DEFINITION. One arm per command: its meaning. -/

namespace Sys2Proof.Machine

def exec (i : Instr) (s : State) : Host.Outcome State Fault Refusal :=
  match i with
  | .nop => Sys2Proof.Machine.execNop s
  | .clr => Sys2Proof.Machine.execClr s
  | .ldc idx w => Sys2Proof.Machine.execLdc idx w s
  | .ldd1 d => Sys2Proof.Machine.execLdd1 d s
  | .ldd2 d => Sys2Proof.Machine.execLdd2 d s
  | .crcv => Sys2Proof.Machine.execCrcv s
  | .conv => Sys2Proof.Machine.execConv s

end Sys2Proof.Machine
end

