-- ==== Sys2Proof/Machine/Port.lean ====
section
/-! DEFINITION. The command port (10_state.md R26, 70_reset_and_hazards.md R115): what one cycle of the host's inputs does. -/

namespace Sys2Proof.Machine

/-- A word taken from the port (30_encoding.md R49): decoded first; `IllegalCommand` if it spells no command (R47), else the
command, whose precondition is checked before its writes. -/
def takeWord (cmd : Word) (s : State) : Result :=
  match decode cmd with
  | .ok i => exec i s
  | .error _ => .next (raiseIllegal s)

/-- One handshake cycle. While `rst` is 1 no command is taken and the block is reset (70_reset_and_hazards.md R109); else a
presented word is taken (R115); else nothing happens (00_scope.md R3). -/
def portCycle (pin : PortIn) (s : State) : Result :=
  if pin.rst then .next (resetBlock s)
  else if pin.cmdValid then takeWord pin.cmd s
  else .next s

/-- The cycle in which the host presents a word and does not reset. -/
def present (cmd : Word) : PortIn := { rst := false, cmdValid := true, cmd := cmd, cSel := 0 }

end Sys2Proof.Machine
end

