-- ==== Sys2Proof/Machine/Step.lean ====
section
/-! DEFINITION. One step: the host's next cycle (00_scope.md R11, 20_memory.md R39). -/

namespace Sys2Proof.Machine

/-- The block consumes what the host drives next and does what it asks; with nothing driven the block waits for a command
(70_reset_and_hazards.md R110) and nothing changes. -/
def step (s : State) : Host.Outcome State Fault Refusal :=
  match s.input with
  | [] => .next s
  | pin :: rest => portCycle pin (setInput rest s)

/-- The state in which the host presents the word of the opcode table as its very next command (log 1). -/
def State.withFetchWord (s : State) (nbits w : Nat) : State :=
  setInput (present (tableWord nbits w) :: s.input) s

end Sys2Proof.Machine
end

