-- ==== Sys2Proof/WellFormed.lean ====
section
/-! DEFINITION. Commands as the assembler's text gives them, with numerals of any size, and the check that they have an
encoding (30_encoding.md R50, R51). A term of `Instr` needs no check: its operand types are the ranges of R44. -/

namespace Sys2Proof

/-- One line of assembler text (R50) or one pseudo-command (R51), its operands still unbounded numerals. -/
inductive AsmLine where
  | nop
  | clr
  | ldc (i w : Nat)
  | ldd1 (d : Nat)
  | ldd2 (d : Nat)
  | crcv
  | conv
  /-- `LOADC w0, …, w7`. -/
  | loadc (ws : List Nat)
  /-- `INIT w0, …, w7`. -/
  | init (ws : List Nat)
  /-- `SAMPLE d1, d2`. -/
  | sample (d1 d2 : Nat)
  deriving DecidableEq, Repr

/-- Eight words of 16 bits, the operands of `LOADC` and `INIT` (R51). -/
def wordsFit (ws : List Nat) : Bool := ws.length == 8 && ws.all (· < 2 ^ 16)

/-- Every operand is in the range R50 gives it. "An operand outside its range has no encoding and is an assembly error". -/
def AsmLine.wf : AsmLine → Bool
  | .nop => true
  | .clr => true
  | .ldc i w => decide (i < 2 ^ 3) && decide (w < 2 ^ 16)
  | .ldd1 d => decide (d < 2 ^ 24)
  | .ldd2 d => decide (d < 2 ^ 24)
  | .crcv => true
  | .conv => true
  | .loadc ws => wordsFit ws
  | .init ws => wordsFit ws
  | .sample d1 d2 => decide (d1 < 2 ^ 24) && decide (d2 < 2 ^ 24)

end Sys2Proof
end

