-- ==== Sys2Proof/Assembler.lean ====
section
/-! DEFINITION. The assembler of 30_encoding.md R50 and R51: text to commands, pseudo-commands expanded. The block sees the
command words only. -/

namespace Sys2Proof.Asm

/-- `LOADC`: `LDC 0, w0` … `LDC 7, w7`, in index order (R51). -/
def loadWords (ws : List Nat) : List Instr :=
  ws.zipIdx.map fun wi => .ldc (BitVec.ofNat 3 wi.2) (BitVec.ofNat 16 wi.1)

/-- The commands a line stands for (R51), its operands in range. -/
def expand : AsmLine → List Instr
  | .nop => [.nop]
  | .clr => [.clr]
  | .ldc i w => [.ldc (BitVec.ofNat 3 i) (BitVec.ofNat 16 w)]
  | .ldd1 d => [.ldd1 (BitVec.ofNat 24 d)]
  | .ldd2 d => [.ldd2 (BitVec.ofNat 24 d)]
  | .crcv => [.crcv]
  | .conv => [.conv]
  | .loadc ws => loadWords ws
  | .init ws => .clr :: loadWords ws ++ [.crcv]
  | .sample d1 d2 => [.ldd1 (BitVec.ofNat 24 d1), .ldd2 (BitVec.ofNat 24 d2), .conv]

/-- The command words of a line; none where an operand is out of range (R50). -/
def assemble (l : AsmLine) : Option (List Word) :=
  if l.wf then some ((expand l).map encode) else none

/-- A blank between the parts of a line. DESIGN CHOICE: space and tab, log 11. -/
def isBlank (ch : Char) : Bool := ch == ' ' || ch == '\t'

/-- A text without its leading and trailing blanks. -/
def trim (cs : List Char) : List Char :=
  ((cs.dropWhile isBlank).reverse.dropWhile isBlank).reverse

/-- The operands of a line, separated by commas (R50). -/
def splitCommas : List Char → List (List Char)
  | [] => [[]]
  | ch :: cs =>
    if ch = ',' then [] :: splitCommas cs
    else match splitCommas cs with
      | [] => [[ch]]
      | w :: ws => (ch :: w) :: ws

/-- The value of a digit in a base, 10 or 16. -/
def digit (base : Nat) (ch : Char) : Option Nat :=
  let v :=
    if '0' ≤ ch ∧ ch ≤ '9' then ch.toNat - '0'.toNat
    else if 'a' ≤ ch ∧ ch ≤ 'f' then ch.toNat - 'a'.toNat + 10
    else if 'A' ≤ ch ∧ ch ≤ 'F' then ch.toNat - 'A'.toNat + 10
    else base
  if v < base then some v else none

/-- The value of a run of digits, most significant first. -/
def digits (base : Nat) (cs : List Char) : Option Nat :=
  cs.foldl (fun acc ch => do let a ← acc; let v ← digit base ch; pure (a * base + v)) (some 0)

/-- A numeral: "decimal, or hexadecimal with `0x`" (R50). -/
def numeral : List Char → Option Nat
  | [] => none
  | '0' :: 'x' :: ds => if ds.isEmpty then none else digits 16 ds
  | ds => digits 10 ds

/-- The command of a mnemonic and its operands; "the mnemonic in upper case" (R50). -/
def command (mnemonic : List Char) (ops : List Nat) : Option AsmLine :=
  if mnemonic = ['N', 'O', 'P'] then (if ops = [] then some .nop else none)
  else if mnemonic = ['C', 'L', 'R'] then (if ops = [] then some .clr else none)
  else if mnemonic = ['C', 'R', 'C', 'V'] then (if ops = [] then some .crcv else none)
  else if mnemonic = ['C', 'O', 'N', 'V'] then (if ops = [] then some .conv else none)
  else if mnemonic = ['L', 'D', 'C'] then (match ops with | [i, w] => some (.ldc i w) | _ => none)
  else if mnemonic = ['L', 'D', 'D', '1'] then (match ops with | [d] => some (.ldd1 d) | _ => none)
  else if mnemonic = ['L', 'D', 'D', '2'] then (match ops with | [d] => some (.ldd2 d) | _ => none)
  else if mnemonic = ['L', 'O', 'A', 'D', 'C'] then some (.loadc ops)
  else if mnemonic = ['I', 'N', 'I', 'T'] then some (.init ops)
  else if mnemonic = ['S', 'A', 'M', 'P', 'L', 'E'] then
    (match ops with | [d1, d2] => some (.sample d1 d2) | _ => none)
  else none

/-- One line of text (R50): no command for a line that is empty or only a comment, one for a command, `none` for text
that is no line of the assembler. `#` starts a comment that runs to the end of the line. -/
def parseLine (cs : List Char) : Option (List AsmLine) :=
  let text := trim (cs.takeWhile (· ≠ '#'))
  if text = [] then some []
  else
    let mnemonic := text.takeWhile (fun ch => !isBlank ch)
    let rest := trim (text.dropWhile (fun ch => !isBlank ch))
    let ops := if rest = [] then some [] else (splitCommas rest).mapM (fun o => numeral (trim o))
    match ops with
    | some ns => (command mnemonic ns).map ([·])
    | none => none

end Sys2Proof.Asm
end

