-- ==== Sys2Proof/HostSide.lean ====
section
/-! DEFINITION. What the spec records for the host, outside the block (00_scope.md R5, 20_memory.md R42): no step of the
machine reads anything here. -/

namespace Sys2Proof.HostSide

/-- The sensor's command bytes the source fixes (20_memory.md R33). The selectors of the conversion trigger are not given
(91_not_in_source.md N9). -/
def sensorReset : Byte := 0x1E

/-- The base of the ADC conversion trigger (R33). -/
def conversionBase : Byte := 0x40

/-- The ADC result read (R33). -/
def adcRead : Byte := 0x00

/-- The byte that reads the word the host loads into `C[i]`: `0xA0 + 2 × i` (R32). -/
def promRead (i : BitVec 3) : Byte := 0xA0 + 2 * i.setWidth 8

/-- A coefficient word from the wire, most significant byte first (R34). -/
def coefFromWire (b0 b1 : Byte) : Coef := b0 ++ b1

/-- A raw code from the wire, most significant byte first (R35). -/
def codeFromWire (b0 b1 b2 : Byte) : RawCode := b0 ++ b1 ++ b2

/-- The settling delay of an oversampling level, in the source's time units (70_reset_and_hazards.md R119). Any other level
is the host's InvalidConfiguration and has none (R42 H4, 60_exceptions.md R99). -/
def settlingDelay : Nat → Option Nat
  | 256 => some 1
  | 512 => some 3
  | 1024 => some 4
  | 2048 => some 6
  | 4096 => some 10
  | _ => none

/-- The presented value of a result register, the exact rational `v / 100` (42_compensation_engine.md R88). -/
def presented (v : BitVec 32) : Rat := (v.toInt : Rat) / 100

end Sys2Proof.HostSide
end

