-- ==== Sys2Proof/Machine/FixedWidth.lean ====
section
/-! DEFINITION. The compensation a second time, in the widths the source names (42_compensation_engine.md R74 to R87): signed
32-bit and 64-bit two's complement that wraps, and division of bit vectors toward zero. "a model may compute in
unbounded integers, in 64-bit two's complement, or in the named widths, and obtain the same result" (R89): an obligation
says so. `CONV` is defined by the exact integers; nothing of the machine reads this file. `VLT_EN` = 0. -/

namespace Sys2Proof.Machine

/-- R74, s32. -/
def fixDT (d2 : RawCode) (cs : Coeffs) : BitVec 32 := d2.setWidth 32 - cs[5].setWidth 32 * 256

/-- R75, s64. -/
def fixN1 (dT : BitVec 32) (cs : Coeffs) : BitVec 64 := dT.signExtend 64 * cs[6].setWidth 64

/-- R75, narrowed to s32. -/
def fixTemp1 (n1 : BitVec 64) : BitVec 32 := (2000 + n1.sdiv 8388608).setWidth 32

/-- R77, R80: 64-bit intermediate, narrowed to s32. -/
def fixT2 (dT temp1 : BitVec 32) : BitVec 32 :=
  if temp1.slt 2000 then ((3 * (dT.signExtend 64 * dT.signExtend 64)).sdiv 8589934592).setWidth 32 else 0

/-- R78: `x` widened to 64 bits before it is squared (R81). -/
def fixX (temp1 : BitVec 32) : BitVec 64 := temp1.signExtend 64 - 2000

/-- R78, R80, s64. -/
def fixOff2 (temp1 : BitVec 32) : BitVec 64 :=
  if temp1.slt 2000 then (3 * (fixX temp1 * fixX temp1)).sdiv 8 else 0

/-- R79, R80, s64. -/
def fixSens2 (temp1 : BitVec 32) : BitVec 64 :=
  if temp1.slt 2000 then (7 * (fixX temp1 * fixX temp1)).sdiv 8 else 0

/-- R83, s64. -/
def fixOff1 (dT : BitVec 32) (cs : Coeffs) : BitVec 64 :=
  cs[2].setWidth 64 * 262144 + (cs[4].setWidth 64 * dT.signExtend 64).sdiv 32

/-- R84, s64. -/
def fixSens1 (dT : BitVec 32) (cs : Coeffs) : BitVec 64 :=
  cs[1].setWidth 64 * 131072 + (cs[3].setWidth 64 * dT.signExtend 64).sdiv 128

/-- Steps 1 to 5 for the temperature, s32 (R85). -/
def fixTemp (d2 : RawCode) (cs : Coeffs) : BitVec 32 :=
  let dT := fixDT d2 cs
  let temp1 := fixTemp1 (fixN1 dT cs)
  temp1 - fixT2 dT temp1

/-- Steps 1 to 6 for the pressure, s64 (R86). -/
def fixP (d1 d2 : RawCode) (cs : Coeffs) : BitVec 64 :=
  let dT := fixDT d2 cs
  let temp1 := fixTemp1 (fixN1 dT cs)
  let off := fixOff1 dT cs - fixOff2 temp1
  let sens := fixSens1 dT cs - fixSens2 temp1
  let q1 := (d1.setWidth 64 * sens).sdiv 2097152
  (q1 - off).sdiv 32768

end Sys2Proof.Machine
end

