-- ==== Sys2Proof/Machine/Handshake.lean ====
section
/-! DEFINITION. The handshake cycle by cycle (70_reset_and_hazards.md R109, R115, R116, R118, R120): `cmd_ready`, a command in
progress for its latency, reset in mid-command, and the outputs meanwhile. The architecture is `step`, which takes each
command in one step (00_scope.md R11); an obligation relates the two under every latency. -/

namespace Sys2Proof.Machine

/-- `LAT_LOAD`, at least 1 (R118). -/
def latLoad : Nat := Config.latLoadLessOne + 1

/-- `LAT_CRCV`, at least 1 (R118). -/
def latCrcv : Nat := Config.latCrcvLessOne + 1

/-- `LAT_CONV`, at least 1 (R118). -/
def latConv : Nat := Config.latConvLessOne + 1

/-- How many cycles `cmd_ready` stays 0 after a word is taken: `LAT_LOAD` also "for every refused or illegal command" (R118). -/
def latency (cmd : Word) (s : State) : Nat :=
  match decode cmd with
  | .ok .crcv => if crcvAllowed s then latCrcv else latLoad
  | .ok .conv => if convAllowed s then latConv else latLoad
  | _ => latLoad

/-- A command in progress: the word taken, the cycles `cmd_ready` stays 0 still, and the cycles it has been 0. -/
structure InFlight where
  cmd : Word
  left : Nat
  elapsed : Nat
  deriving DecidableEq, Repr

/-- The block seen cycle by cycle: the architectural state, the command in progress, and the model's count of commands taken. -/
structure Timed where
  arch : State
  busy : Option InFlight
  taken : Nat
  deriving DecidableEq, Repr

/-- A cycle's result, the outcome of the architectural step it performs. -/
def Timed.lift (r : Result) (f : State → Timed) : Host.Outcome Timed Fault Refusal :=
  match r with
  | .next s => .next (f s)
  | .fault r => .fault r
  | .refused r => .refused r

/-- One clock cycle. `rst` abandons a command in progress without any of its writes (R109). A word is taken only when no
command is in progress (R115); its writes appear together when it completes, in the last of its cycles (R38, R116). -/
def cycle (pin : PortIn) (t : Timed) : Host.Outcome Timed Fault Refusal :=
  if pin.rst then .next { t with arch := resetBlock t.arch, busy := none }
  else match t.busy with
    | none =>
      if pin.cmdValid then
        .next { t with busy := some ⟨pin.cmd, latency pin.cmd t.arch, 0⟩, taken := t.taken + 1 }
      else .next t
    | some b =>
      if b.left ≤ 1 then Timed.lift (takeWord b.cmd t.arch) (fun s => { t with arch := s, busy := none })
      else .next { t with busy := some ⟨b.cmd, b.left - 1, b.elapsed + 1⟩ }

/-- The cycles of a trace, one after another. -/
def cycles : List PortIn → Timed → Host.Outcome Timed Fault Refusal
  | [], t => .next t
  | pin :: pins, t =>
    match cycle pin t with
    | .next t' => cycles pins t'
    | .fault r => .fault r
    | .refused r => .refused r

/-- The cycles of a trace that the architecture sees: every reset, and every cycle with no command in progress. A word
presented while `cmd_ready` is 0 "is not taken and has no effect" (R115). -/
def visible : List PortIn → Timed → List PortIn
  | [], _ => []
  | pin :: pins, t =>
    let rest := match cycle pin t with
      | .next t' => visible pins t'
      | _ => []
    if pin.rst || t.busy.isNone then pin :: rest else rest

/-- `cmd_ready` (R109, R115). -/
def Timed.ready (pin : PortIn) (t : Timed) : Bool := !pin.rst && t.busy.isNone

/-- The state an output shows (R116): with a command in progress, the state before it until the output's free switching
time, then the state after it. Each output switches once. Log 8. -/
def Timed.shown (t : Timed) (o : OutPort) : State :=
  match t.busy with
  | none => t.arch
  | some b =>
    if b.elapsed < Config.switchAfter o t.taken then t.arch
    else match takeWord b.cmd t.arch with
      | .next s => s
      | _ => t.arch

/-- The output ports in a cycle (10_state.md R26). -/
def Timed.outputs (pin : PortIn) (t : Timed) : PortOut where
  cmdReady := t.ready pin
  status := status (t.shown .status)
  crcCalc := (t.shown .crcCalc).crcCalc
  crcEmb := (t.shown .crcEmb).crcEmb
  temp := (t.shown .temp).temp
  p := (t.shown .p).p
  d1 := (t.shown .d1).d1
  d2 := (t.shown .d2).d2
  cData := coefAt (t.shown .cData).coef pin.cSel

end Sys2Proof.Machine
end

