-- ==== Sys2Proof/Safety.lean ====
section
/-! DEFINITION. What claims are stated in: a run gone wrong (60_exceptions.md R108), the preconditions by command (R97), and
the invariants of 10_state.md R29. -/

namespace Sys2Proof.Machine

/-- "Gone wrong" for a run: `ERR_SEQ` = 1 or `ERR_ILL` = 1 (R108). -/
def goneWrong (s : State) : Bool := s.errSeq || s.errIll

/-- The complete list of preconditions (R97); a command not listed has none. -/
def accepts (i : Instr) (s : State) : Bool :=
  match i with
  | .nop => true
  | .clr => true
  | .ldc _ _ => !s.valid
  | .ldd1 _ => true
  | .ldd2 _ => true
  | .crcv => s.loaded == 0xFF
  | .conv => s.valid && s.d1v && s.d2v

/-- The invariants I1 to I5 of R29. -/
structure BlockInv (s : State) : Prop where
  /-- I1. -/
  validChecked : s.valid = true → s.crcDone = true
  /-- I2. -/
  checkedLoaded : s.crcDone = true → s.loaded = 0xFF
  checkedCalc : s.crcDone = true → s.crcCalc = crc4 s.params.crcField s.coef
  checkedEmb : s.crcDone = true → s.crcEmb = embedded s.params.crcField s.coef
  checkedValid : s.crcDone = true → s.valid = (s.crcCalc.setWidth 8 == s.crcEmb)
  /-- I3. -/
  readingValid : s.convDone = true → s.valid = true ∧ s.d1v = true ∧ s.d2v = true
  readingTemp : s.convDone = true → s.temp = Machine.readingTemp s.params s.d1 s.d2 s.coef
  readingP : s.convDone = true → s.p = Machine.readingP s.params s.d1 s.d2 s.coef
  /-- I4. -/
  d1Unloaded : s.d1v = false → s.d1 = 0
  d2Unloaded : s.d2v = false → s.d2 = 0
  coefUnloaded : ∀ idx : BitVec 3, s.loaded.getLsbD idx.toNat = false → coefAt s.coef idx = 0
  /-- I5. -/
  uncheckedInvalid : s.crcDone = false → s.valid = false

/-- The same machine with the error flags at other values, for claims that they steer nothing (60_exceptions.md R103). -/
def withErrors (seq ill : Bool) (s : State) : State := { s with errSeq := seq, errIll := ill }

/-- The word the host presents in a cycle spells a command the block refuses (60_exceptions.md R96). -/
def seqErrorOf (pin : PortIn) (s : State) : Bool :=
  pin.cmdValid && (match decode pin.cmd with
    | .ok i => !accepts i s
    | .error _ => false)

/-- The word the host presents in a cycle spells no command (R95). -/
def illegalOf (pin : PortIn) : Bool :=
  pin.cmdValid && (match decode pin.cmd with
    | .ok _ => false
    | .error _ => true)

/-- The 128-bit message as one number, `C[0]` in the most significant bits (41_checksum_validator.md R68). -/
def message128 (f : CrcField) (cs : Coeffs) : BitVec 128 :=
  cs[0] ++ cs[1] ++ cs[2] ++ cs[3] ++ cs[4] ++ cs[5] ++ cs[6] ++ maskedWord7 f cs

/-- The register of R63 run over all 16 bytes with the checksum field as it stands: "no masking at all" (R68). -/
def unmaskedRegister (cs : Coeffs) : BitVec 16 := (cs.toList.flatMap wordBytes).foldl stepByte 0

/-- A polynomial times `g(x) = x^4 + x + 1` over GF(2), in 128 bits (R68). -/
def timesG (q : BitVec 128) : BitVec 128 := (q <<< 4) ^^^ (q <<< 1) ^^^ q

/-- The table of R69: row = word index, columns bit 15 down to bit 0, for the default mask. -/
def crcTable : List (List (BitVec 4)) :=
  [ [0x8, 0x4, 0x2, 0x1, 0x9, 0xD, 0xF, 0xE, 0x7, 0xA, 0x5, 0xB, 0xC, 0x6, 0x3, 0x8],
    [0x4, 0x2, 0x1, 0x9, 0xD, 0xF, 0xE, 0x7, 0xA, 0x5, 0xB, 0xC, 0x6, 0x3, 0x8, 0x4],
    [0x2, 0x1, 0x9, 0xD, 0xF, 0xE, 0x7, 0xA, 0x5, 0xB, 0xC, 0x6, 0x3, 0x8, 0x4, 0x2],
    [0x1, 0x9, 0xD, 0xF, 0xE, 0x7, 0xA, 0x5, 0xB, 0xC, 0x6, 0x3, 0x8, 0x4, 0x2, 0x1],
    [0x9, 0xD, 0xF, 0xE, 0x7, 0xA, 0x5, 0xB, 0xC, 0x6, 0x3, 0x8, 0x4, 0x2, 0x1, 0x9],
    [0xD, 0xF, 0xE, 0x7, 0xA, 0x5, 0xB, 0xC, 0x6, 0x3, 0x8, 0x4, 0x2, 0x1, 0x9, 0xD],
    [0xF, 0xE, 0x7, 0xA, 0x5, 0xB, 0xC, 0x6, 0x3, 0x8, 0x4, 0x2, 0x1, 0x9, 0xD, 0xF],
    [0xE, 0x7, 0xA, 0x5, 0xB, 0xC, 0x6, 0x3, 0x8, 0x4, 0x2, 0x1, 0x0, 0x0, 0x0, 0x0] ]

/-- The entry of R69 for bit `k` of `C[i]`: "With `CRC_FIELD_MASK` = `0x00FF` the entries of `C[7]` bits 7 to 4 become 0 as
well". -/
def crcEntry (f : CrcField) (i k : Nat) : BitVec 4 :=
  if f = .byte ∧ i = 7 ∧ k ≤ 7 then 0 else (crcTable.getD i []).getD (15 - k) 0

/-- "the exclusive-or of the entries of this table for the bits that are 1" (R69). -/
def crcByTable (f : CrcField) (cs : Coeffs) : BitVec 4 :=
  (List.range 8).foldl (fun acc i =>
    (List.range 16).foldl (fun acc k =>
      if (coefAt cs (BitVec.ofNat 3 i)).getLsbD k then acc ^^^ crcEntry f i k else acc) acc) 0

/-- The set with one bit flipped, for claims on single-bit errors (R70 c). -/
def flipBit (idx : BitVec 3) (k : Nat) (cs : Coeffs) : Coeffs :=
  setCoef cs idx (coefAt cs idx ^^^ (1#16 <<< k))

/-- The word-by-word exclusive-or of two sets (R69). -/
def xorCoeffs (a b : Coeffs) : Coeffs := Vector.zipWith (· ^^^ ·) a b

/-- The bit lies in the checksum field of word 7 (R62). -/
def inField (f : CrcField) (idx : BitVec 3) (k : Nat) : Bool := idx == 7 && (crcFieldMask f).getLsbD k

/-- An output port shows the state `s` (70_reset_and_hazards.md R116), `sel` being the index on `c_sel`. -/
def portShows (port : OutPort) (sel : BitVec 3) (s : State) (o : PortOut) : Prop :=
  match port with
  | .status => o.status = status s
  | .crcCalc => o.crcCalc = s.crcCalc
  | .crcEmb => o.crcEmb = s.crcEmb
  | .temp => o.temp = s.temp
  | .p => o.p = s.p
  | .d1 => o.d1 = s.d1
  | .d2 => o.d2 = s.d2
  | .cData => o.cData = coefAt s.coef sel

end Sys2Proof.Machine
end

