-- ==== Sys2Proof/Certificates/Slice0/Obligations.lean ====
section
/-! DEFINITION. The statements for the provers, from the numbered rules of spec/. -/

open Sys2Proof Sys2Proof.Machine

/-! ### Reset, the port, one step -/

/-- 10_state.md R28: every register and every flag is 0, `STATUS` is 0, and `cmd_ready` is 1 once `rst` is released. -/
def Obligations.ResetStateIsAllZero : Prop :=
  (∀ idx : BitVec 3, coefAt State.reset.coef idx = 0) ∧ State.reset.loaded = 0 ∧ State.reset.d1 = 0 ∧ State.reset.d2 = 0 ∧
    State.reset.d1v = false ∧ State.reset.d2v = false ∧ State.reset.crcCalc = 0 ∧ State.reset.crcEmb = 0 ∧
    State.reset.crcDone = false ∧ State.reset.valid = false ∧ State.reset.temp = 0 ∧ State.reset.p = 0 ∧
    State.reset.convDone = false ∧ State.reset.errSeq = false ∧ State.reset.errIll = false ∧ status State.reset = 0 ∧
    ∀ pin : PortIn, pin.rst = false → (outputs pin State.reset).cmdReady = true

/-- 70_reset_and_hazards.md section 1: in a cycle with `rst` = 1 no command is taken, whatever word is presented, the block
is in the reset state, and `cmd_ready` is 0. Seen cycle by cycle, a command in progress leaves none of its writes. That
the registers hold the reset values already while `rst` is 1 is the model's choice (log 9). -/
def Obligations.ResetCycleLeavesResetState : Prop :=
  (∀ (s : Machine.State) (pin : PortIn) (rest : List PortIn), s.input = pin :: rest → pin.rst = true →
    step s = .next { State.reset with params := s.params, input := rest } ∧ (outputs pin s).cmdReady = false) ∧
  ∀ (t : Timed) (pin : PortIn), pin.rst = true →
    cycle pin t = .next { t with arch := { State.reset with params := t.arch.params, input := t.arch.input }, busy := none }

/-- A step runs the decoded command: the input is consumed, then the command runs on the state (30_encoding.md R49). -/
def Obligations.StepRunsDecodedCommand : Prop :=
  ∀ (s : Machine.State) (pin : PortIn) (rest : List PortIn) (i : Instr), s.input = pin :: rest → pin.rst = false →
    pin.cmdValid = true → decode pin.cmd = .ok i → step s = exec i { s with input := rest }

/-- 60_exceptions.md R95: a word that spells no command sets `ERR_ILL`, changes nothing else, and is stored nowhere. -/
def Obligations.IllegalWordSetsOnlyErrIll : Prop :=
  ∀ (s : Machine.State) (pin : PortIn) (rest : List PortIn) (e : Illegal), s.input = pin :: rest → pin.rst = false →
    pin.cmdValid = true → decode pin.cmd = .error e → step s = .next { s with input := rest, errIll := true }

/-- 00_scope.md section 3, 70_reset_and_hazards.md section 3: without a presented command, or without any input, nothing of
the block changes. -/
def Obligations.NoCommandNoChange : Prop :=
  (∀ s : Machine.State, s.input = [] → step s = .next s) ∧
  ∀ (s : Machine.State) (pin : PortIn) (rest : List PortIn), s.input = pin :: rest → pin.rst = false →
    pin.cmdValid = false → step s = .next { s with input := rest }

/-! ### Encoding -/

/-- The words W1 to W21 of 95_test_vectors.md section 2. -/
def Obligations.SpecWordsDecodeAsListed : Prop :=
  decode 0x00000000 = .ok .nop ∧ decode 0x10000000 = .ok .clr ∧ decode 0x20003132 = .ok (.ldc 0 0x3132) ∧
    decode 0x23007437 = .ok (.ldc 3 0x7437) ∧ decode 0x2700FFFF = .ok (.ldc 7 0xFFFF) ∧
    decode 0x3041C9FE = .ok (.ldd1 0x41C9FE) ∧ decode 0x30FFFFFF = .ok (.ldd1 0xFFFFFF) ∧
    decode 0x407FFAE4 = .ok (.ldd2 0x7FFAE4) ∧ decode 0x40000000 = .ok (.ldd2 0) ∧ decode 0x50000000 = .ok .crcv ∧
    decode 0x60000000 = .ok .conv ∧ decode 0x70000000 = .error .opcode ∧ decode 0xFFFFFFFF = .error .opcode ∧
    decode 0x00000001 = .error .reservedBits ∧ decode 0x10000001 = .error .reservedBits ∧
    decode 0x28000000 = .error .indexBit27 ∧ decode 0x20010000 = .error .wordBits23to16 ∧
    decode 0x31000000 = .error .codeBits27to24 ∧ decode 0x4F000000 = .error .codeBits27to24 ∧
    decode 0x50000001 = .error .reservedBits ∧ decode 0x6000FFFF = .error .reservedBits

/-- 30_encoding.md R45: a word spells a command exactly when `(cmd & mask) == match` for its row, with the operands of R44. -/
def Obligations.WordSpellsCommandByItsRow : Prop :=
  ∀ cmd : Word,
    (decode cmd = .ok .nop ↔ cmd &&& 0xFFFFFFFF = 0x00000000) ∧ (decode cmd = .ok .clr ↔ cmd &&& 0xFFFFFFFF = 0x10000000) ∧
    ((∃ idx w, decode cmd = .ok (.ldc idx w)) ↔ cmd &&& 0xF8FF0000 = 0x20000000) ∧
    (∀ idx w, decode cmd = .ok (.ldc idx w) → idx = cmd.extractLsb' 24 3 ∧ w = cmd.extractLsb' 0 16) ∧
    ((∃ d, decode cmd = .ok (.ldd1 d)) ↔ cmd &&& 0xFF000000 = 0x30000000) ∧
    (∀ d, decode cmd = .ok (.ldd1 d) → d = cmd.extractLsb' 0 24) ∧
    ((∃ d, decode cmd = .ok (.ldd2 d)) ↔ cmd &&& 0xFF000000 = 0x40000000) ∧
    (∀ d, decode cmd = .ok (.ldd2 d) → d = cmd.extractLsb' 0 24) ∧
    (decode cmd = .ok .crcv ↔ cmd &&& 0xFFFFFFFF = 0x50000000) ∧ (decode cmd = .ok .conv ↔ cmd &&& 0xFFFFFFFF = 0x60000000)

/-- 30_encoding.md R46, its cases: which words are illegal. -/
def Obligations.IllegalWordsAreTheListedOnes : Prop :=
  ∀ cmd : Word, (∃ e, decode cmd = .error e) ↔
    (7 ≤ (cmd.extractLsb' 28 4).toNat ∨
      ((cmd.extractLsb' 28 4 = 0 ∨ cmd.extractLsb' 28 4 = 1 ∨ cmd.extractLsb' 28 4 = 5 ∨ cmd.extractLsb' 28 4 = 6) ∧
        cmd.extractLsb' 0 28 ≠ 0) ∨
      (cmd.extractLsb' 28 4 = 2 ∧ (cmd.extractLsb' 27 1 ≠ 0 ∨ cmd.extractLsb' 16 8 ≠ 0)) ∨
      ((cmd.extractLsb' 28 4 = 3 ∨ cmd.extractLsb' 28 4 = 4) ∧ cmd.extractLsb' 24 4 ≠ 0))

/-- 30_encoding.md R46, its count: 34,078,724 of the 2^32 words are legal. -/
def Obligations.LegalWordCount : Prop :=
  Nat.card { cmd : Word // ∃ i, decode cmd = .ok i } = 34078724

/-- Every command, with every operand, is read back from its word: no bit of an encoding is dropped (30_encoding.md). -/
def Obligations.EncodeThenDecode : Prop := ∀ i : Instr, decode (encode i) = .ok i

/-- Each legal word is the encoding of the command it spells: one word, one command (30_encoding.md). -/
def Obligations.DecodeThenEncode : Prop := ∀ (cmd : Word) (i : Instr), decode cmd = .ok i → encode i = cmd

/-- 30_encoding.md R51: the expansions of the three pseudo-commands. -/
def Obligations.PseudoCommandsExpand : Prop :=
  (∀ w0 w1 w2 w3 w4 w5 w6 w7 : Coef,
    let ws := [w0.toNat, w1.toNat, w2.toNat, w3.toNat, w4.toNat, w5.toNat, w6.toNat, w7.toNat]
    let loads : List Instr := [.ldc 0 w0, .ldc 1 w1, .ldc 2 w2, .ldc 3 w3, .ldc 4 w4, .ldc 5 w5, .ldc 6 w6, .ldc 7 w7]
    Asm.expand (.loadc ws) = loads ∧ Asm.expand (.init ws) = [.clr] ++ loads ++ [.crcv]) ∧
  ∀ d1 d2 : RawCode, Asm.expand (.sample d1.toNat d2.toNat) = [.ldd1 d1, .ldd2 d2, .conv]

/-- 30_encoding.md section 5: an operand in range is encoded as the formulas of R50 say, one outside its range has no
encoding. -/
def Obligations.AssemblerEncodesInRangeOperandsOnly : Prop :=
  (∀ i w : Nat, Asm.assemble (.ldc i w) =
    if i ≤ 7 ∧ w ≤ 0xFFFF then some [0x20000000 ||| (BitVec.ofNat 32 i <<< 24) ||| BitVec.ofNat 32 w] else none) ∧
  (∀ d : Nat, Asm.assemble (.ldd1 d) = if d ≤ 0xFFFFFF then some [0x30000000 ||| BitVec.ofNat 32 d] else none) ∧
  ∀ d : Nat, Asm.assemble (.ldd2 d) = if d ≤ 0xFFFFFF then some [0x40000000 ||| BitVec.ofNat 32 d] else none

/-! ### The commands: encoding, effect, refusal, and that nothing else changes -/

/-- 40_load_commands.md R53. -/
def Obligations.NopLeavesTheState : Prop :=
  decode 0x00000000 = .ok .nop ∧ (∀ s : Machine.State, exec .nop s = .next s) ∧
    ∀ cmd : Word, cmd.extractLsb' 28 4 = 0 → cmd ≠ 0 → ∃ e, decode cmd = .error e

/-- 40_load_commands.md R54: the next state is the reset state but for the two error flags (and the model's own fields); no
other command leaves `VALID` = 1, in a state with the invariants. -/
def Obligations.ClrClearsAllButErrorFlags : Prop :=
  decode 0x10000000 = .ok .clr ∧
  (∀ s : Machine.State, exec .clr s = .next
    { State.reset with errSeq := s.errSeq, errIll := s.errIll, params := s.params, input := s.input }) ∧
  ∀ (i : Instr) (s t : Machine.State), BlockInv s → exec i s = .next t → s.valid = true → t.valid = false → i = .clr

/-- 40_load_commands.md R55: both branches; the record update says that nothing else changes; where `LDC` is not refused there
is no reading to invalidate, in a state with the invariants. -/
def Obligations.LdcLoadsUnlessValidated : Prop :=
  (∀ (idx : BitVec 3) (w : Coef), decode (0x20000000 ||| (idx.setWidth 32 <<< 24) ||| w.setWidth 32) = .ok (.ldc idx w)) ∧
  (∀ (idx : BitVec 3) (w : Coef) (s : Machine.State), s.valid = true → exec (.ldc idx w) s = .next { s with errSeq := true }) ∧
  ∀ (idx : BitVec 3) (w : Coef) (s : Machine.State), s.valid = false →
    ∃ t, exec (.ldc idx w) s = .next t ∧ t = { s with coef := t.coef, loaded := t.loaded, crcDone := false } ∧
      coefAt t.coef idx = w ∧ t.loaded.getLsbD idx.toNat = true ∧
      (∀ j : BitVec 3, j ≠ idx → coefAt t.coef j = coefAt s.coef j ∧ t.loaded.getLsbD j.toNat = s.loaded.getLsbD j.toNat) ∧
      (BlockInv s → s.convDone = false)

/-- 40_load_commands.md R56. -/
def Obligations.Ldd1LoadsPressureCode : Prop :=
  ∀ d : RawCode, decode (0x30000000 ||| d.setWidth 32) = .ok (.ldd1 d) ∧
    ∀ s : Machine.State, exec (.ldd1 d) s = .next { s with d1 := d, d1v := true, convDone := false }

/-- 40_load_commands.md R57. -/
def Obligations.Ldd2LoadsTemperatureCode : Prop :=
  ∀ d : RawCode, decode (0x40000000 ||| d.setWidth 32) = .ok (.ldd2 d) ∧
    ∀ s : Machine.State, exec (.ldd2 d) s = .next { s with d2 := d, d2v := true, convDone := false }

/-- 41_checksum_validator.md R59 and R60: both branches, for either `CRC_FIELD_MASK`. -/
def Obligations.CrcvValidatesLoadedSet : Prop :=
  decode 0x50000000 = .ok .crcv ∧
  (∀ s : Machine.State, s.loaded ≠ 0xFF → exec .crcv s = .next { s with errSeq := true }) ∧
  ∀ s : Machine.State, s.loaded = 0xFF → exec .crcv s = .next
    { s with
      crcCalc := crc4 s.params.crcField s.coef
      crcEmb := (s.coef[7] &&& crcFieldMask s.params.crcField).extractLsb' 0 8
      valid := (crc4 s.params.crcField s.coef).setWidth 8 == (s.coef[7] &&& crcFieldMask s.params.crcField).extractLsb' 0 8
      crcDone := true }

/-- 42_compensation_engine.md R71 and R72, at `VLT_EN` = 0 (the spec's default, and the only setting R89 is given for): both
branches; `P` is the narrowed `p` whatever the operands. -/
def Obligations.ConvWritesReading : Prop :=
  decode 0x60000000 = .ok .conv ∧
  (∀ s : Machine.State, s.valid = false ∨ s.d1v = false ∨ s.d2v = false → exec .conv s = .next { s with errSeq := true }) ∧
  ∀ s : Machine.State, s.params.vltEn = false → s.valid = true → s.d1v = true → s.d2v = true → exec .conv s = .next
    { s with
      temp := BitVec.ofInt 32 (comp false s.d1 s.d2 s.coef).temp
      p := BitVec.ofInt 32 (comp false s.d1 s.d2 s.coef).p
      convDone := true }

/-- 42_compensation_engine.md section 3 (R82), for either `VLT_EN`: an accepted `CONV` completes, the temperature does not
depend on the optional step, and `P` is the narrowed `p` where the values fit signed 64 bits. That `P` is free where a
supplied `vlt_term` makes them overflow is the model's choice (log 5). -/
def Obligations.ConvCompletesForEitherVlt : Prop :=
  ∀ s : Machine.State, s.valid = true → s.d1v = true → s.d2v = true →
    ∃ q, exec .conv s = .next
      { s with temp := BitVec.ofInt 32 (comp false s.d1 s.d2 s.coef).temp, p := q, convDone := true } ∧
    (compFits (comp s.params.vltEn s.d1 s.d2 s.coef) = true →
      q = BitVec.ofInt 32 (comp s.params.vltEn s.d1 s.d2 s.coef).p)

/-- 60_exceptions.md R98: a checksum mismatch is a status and no error; the values are there for diagnosis; `ERR_SEQ` is set
if `CONV` follows, and corrected words are accepted. -/
def Obligations.ChecksumMismatchIsNoError : Prop :=
  ∀ s : Machine.State, s.loaded = 0xFF →
    (crc4 s.params.crcField s.coef).setWidth 8 ≠ embedded s.params.crcField s.coef →
    ∃ t, exec .crcv s = .next t ∧ checksumMismatch t = true ∧ t.crcDone = true ∧ t.valid = false ∧ t.errSeq = s.errSeq ∧
      t.errIll = s.errIll ∧ t.crcCalc = crc4 s.params.crcField s.coef ∧ t.crcEmb = embedded s.params.crcField s.coef ∧
      exec .conv t = .next { t with errSeq := true } ∧
      ∀ (idx : BitVec 3) (w : Coef), ∃ u, exec (.ldc idx w) t = .next u ∧ u.errSeq = t.errSeq ∧ coefAt u.coef idx = w ∧
        u.loaded = 0xFF

/-! ### Status, errors, the whole machine -/

/-- 10_state.md section 5: the bits of `STATUS`. -/
def Obligations.StatusBitsAreTheFlags : Prop :=
  ∀ s : Machine.State, (status s).getLsbD 0 = s.valid ∧ (status s).getLsbD 1 = s.crcDone ∧
    (status s).getLsbD 2 = s.convDone ∧ (status s).getLsbD 3 = s.d1v ∧ (status s).getLsbD 4 = s.d2v ∧
    (status s).getLsbD 5 = s.errSeq ∧ (status s).getLsbD 6 = s.errIll ∧ (status s).getLsbD 7 = false ∧
    ∀ k, k < 8 → (status s).getLsbD (8 + k) = s.loaded.getLsbD k

/-- 60_exceptions.md R96 and R97: the complete list of preconditions, and what a refused command does. -/
def Obligations.RefusedExactlyByPrecondition : Prop :=
  ∀ (i : Instr) (s : Machine.State),
    let pre : Prop := match i with
      | .ldc _ _ => s.valid = false
      | .crcv => s.loaded = 0xFF
      | .conv => s.valid = true ∧ s.d1v = true ∧ s.d2v = true
      | _ => True
    (¬pre → exec i s = .next { s with errSeq := true }) ∧ (pre → ∃ t, exec i s = .next t ∧ t.errSeq = s.errSeq)

/-- 10_state.md R21: what a step does to the two sticky flags. A refused command sets `ERR_SEQ`, a word that spells no
command sets `ERR_ILL`, nothing else sets them, and only reset clears them. -/
def Obligations.ErrorFlagsAreSticky : Prop :=
  (∀ s t : Machine.State, s.input = [] → step s = .next t → t.errSeq = s.errSeq ∧ t.errIll = s.errIll) ∧
  ∀ (s t : Machine.State) (pin : PortIn) (rest : List PortIn), s.input = pin :: rest → step s = .next t →
    if pin.rst then t.errSeq = false ∧ t.errIll = false
    else t.errSeq = (s.errSeq || seqErrorOf pin s) ∧ t.errIll = (s.errIll || illegalOf pin)

/-- 60_exceptions.md section 4 (R103): the error flags steer nothing. A command leaves the same state, whatever they hold,
but for the flags themselves. -/
def Obligations.ErrorFlagsSteerNothing : Prop :=
  ∀ (i : Instr) (s t : Machine.State) (seq ill : Bool), exec i s = .next t →
    exec i (withErrors seq ill s) = .next (withErrors (seq || !accepts i s) ill t)

/-- 10_state.md section 8, the write matrix by columns: which commands leave which register alone. -/
def Obligations.RegistersWrittenOnlyByTheirCommands : Prop :=
  ∀ (i : Instr) (s t : Machine.State), exec i s = .next t →
    t.params = s.params ∧ t.input = s.input ∧ t.errIll = s.errIll ∧
    (accepts i s = true → t.errSeq = s.errSeq) ∧ (accepts i s = false → t = { s with errSeq := true }) ∧
    (i ≠ .clr → (∀ idx w, i ≠ .ldc idx w) → t.coef = s.coef ∧ t.loaded = s.loaded) ∧
    (∀ idx w, i = .ldc idx w → ∀ j : BitVec 3, j ≠ idx →
      coefAt t.coef j = coefAt s.coef j ∧ t.loaded.getLsbD j.toNat = s.loaded.getLsbD j.toNat) ∧
    (i ≠ .clr → (∀ d, i ≠ .ldd1 d) → t.d1 = s.d1 ∧ t.d1v = s.d1v) ∧
    (i ≠ .clr → (∀ d, i ≠ .ldd2 d) → t.d2 = s.d2 ∧ t.d2v = s.d2v) ∧
    (i ≠ .clr → i ≠ .crcv → t.crcCalc = s.crcCalc ∧ t.crcEmb = s.crcEmb ∧ t.valid = s.valid) ∧
    (i ≠ .clr → i ≠ .crcv → (∀ idx w, i ≠ .ldc idx w) → t.crcDone = s.crcDone) ∧
    (i ≠ .clr → i ≠ .conv → t.temp = s.temp ∧ t.p = s.p) ∧
    (i ≠ .clr → i ≠ .conv → (∀ d, i ≠ .ldd1 d) → (∀ d, i ≠ .ldd2 d) → t.convDone = s.convDone)

/-- 20_memory.md section 3 (R38), 41_checksum_validator.md R67, 42_compensation_engine.md R92: repeating a command leaves the
same state after the second as after the first. -/
def Obligations.RepeatedCommandChangesNothing : Prop :=
  ∀ (i : Instr) (s t : Machine.State), exec i s = .next t → exec i t = .next t

/-- 70_reset_and_hazards.md section 4 (R120): no stuck state. Every step of every state answers a next state. -/
def Obligations.EveryStepCompletes : Prop := ∀ s : Machine.State, ∃ t, step s = .next t

/-- 70_reset_and_hazards.md section 1 (R110): nothing changes the parameters of the instance. -/
def Obligations.ParametersNeverChange : Prop := ∀ s t : Machine.State, step s = .next t → t.params = s.params

/-- 10_state.md section 10: the invariants I1 to I5 hold in the reset state. -/
def Obligations.ResetMeetsInvariants : Prop := BlockInv State.reset

/-- 10_state.md section 10: every step keeps I1 to I5, from every state that has them, whatever the host drives. -/
def Obligations.StepKeepsInvariants : Prop := ∀ s t : Machine.State, BlockInv s → step s = .next t → BlockInv t

/-- 10_state.md section 10, I6: while `VALID` = 1 no coefficient changes but by `CLR` or reset, in any state at all. -/
def Obligations.ValidatedSetIsImmutable : Prop :=
  ∀ s t : Machine.State, step s = .next t → s.valid = true →
    t.coef = s.coef ∨ ∃ pin rest, s.input = pin :: rest ∧
      (pin.rst = true ∨ (pin.cmdValid = true ∧ decode pin.cmd = .ok .clr))

/-- 10_state.md R29: I1 to I6 in every state reachable from reset by any sequence of inputs whatsoever, for every setting of
the parameters. R29 says I3 by the `comp` of R89, which is for `VLT_EN` = 0; at `VLT_EN` = 1 the clause on `P` is
`readingP`, whose value on an overflow of the supplied `vlt_term` is the model's choice (log 5). -/
def Obligations.ReachableStatesMeetInvariants : Prop :=
  ∀ (pr : Params) (pins : List PortIn) (k : Nat) (s : Machine.State),
    Host.Core.run Sys2Proof.core k ({ State.reset with params := pr, input := pins } : Machine.State) = .next s →
    BlockInv s ∧ ∀ (pin : PortIn) (rest : List PortIn) (t : Machine.State), s.valid = true → s.input = pin :: rest →
      pin.rst = false → ¬(pin.cmdValid = true ∧ decode pin.cmd = .ok .clr) → step s = .next t → t.coef = s.coef

/-- 60_exceptions.md sections 4 and 6 (R103, R108): if a run without reset has not gone wrong at its end, every word taken
on the way spelled a command and none was refused. -/
def Obligations.CleanRunRefusedNothing : Prop :=
  ∀ (k : Nat) (s t : Machine.State), Host.Core.run Sys2Proof.core k s = .next t →
    (∀ pin ∈ s.input.take k, pin.rst = false) → goneWrong t = false →
    ∀ (j : Nat) (u : Machine.State) (pin : PortIn) (rest : List PortIn), j < k → Host.Core.run Sys2Proof.core j s = .next u →
      u.input = pin :: rest → pin.cmdValid = true → ∃ i, decode pin.cmd = .ok i ∧ accepts i u = true

/-! ### The checksum validator -/

/-- 41_checksum_validator.md section 3: after a byte step the low 8 bits of the register are 0 (R64). -/
def Obligations.ByteStepClearsLowByte : Prop := ∀ (r : BitVec 16) (b : Byte), (stepByte r b).extractLsb' 0 8 = 0

/-- 41_checksum_validator.md R62: the embedded checksum under both masks, when a byte field can match, and that the two masks
agree on every set with `C[7][7:4]` = 0. -/
def Obligations.ChecksumFieldMasks : Prop :=
  ∀ cs : Coeffs,
    embedded .nibble cs = (cs[7].extractLsb' 0 4).setWidth 8 ∧ embedded .byte cs = cs[7].extractLsb' 0 8 ∧
    ((crc4 .byte cs).setWidth 8 = embedded .byte cs → cs[7].extractLsb' 4 4 = 0) ∧
    (cs[7].extractLsb' 4 4 = 0 → crc4 .nibble cs = crc4 .byte cs ∧ embedded .nibble cs = embedded .byte cs)

/-- 41_checksum_validator.md R69: linearity, the checksum of any set from the table, for either mask, and the table's period
of 15 along the bit stream. -/
def Obligations.ChecksumIsLinear : Prop :=
  ∀ f : CrcField, (∀ a b : Coeffs, crc4 f (xorCoeffs a b) = crc4 f a ^^^ crc4 f b) ∧
    (∀ cs : Coeffs, crc4 f cs = crcByTable f cs) ∧
    ∀ n, n + 15 < 124 →
      crcEntry .nibble (n / 16) (15 - n % 16) = crcEntry .nibble ((n + 15) / 16) (15 - (n + 15) % 16)

/-- 41_checksum_validator.md R68: `crc4(C)` is the remainder of the upper 124 bits of the message modulo `x^4 + x + 1`: some
quotient of degree below 120 leaves it. The other clauses are about the register run over all 16 bytes with nothing
zeroed: mask `0x000F` gives the same checksum as no masking, mask `0x00FF` removes bits 7:4 of word 7 as well, the low 4 bits
of word 7 never influence the top nibble, and they are what is left in the low 12 bits, shifted by 8. -/
def Obligations.ChecksumClosedForm : Prop :=
  (∀ (f : CrcField) (cs : Coeffs), ∃ q : BitVec 128, q.toNat < 2 ^ 120 ∧
    message128 f cs >>> 4 = timesG q ^^^ (crc4 f cs).setWidth 128) ∧
  (∀ (f : CrcField) (cs : Coeffs) (n : BitVec 4), crc4 f (setCoef cs 7 (cs[7] ^^^ n.setWidth 16)) = crc4 f cs) ∧
  ∀ cs : Coeffs,
    crc4 .nibble cs = (unmaskedRegister cs).extractLsb' 12 4 ∧
    crc4 .byte cs = (unmaskedRegister (setCoef cs 7 (cs[7] &&& 0xFF0F))).extractLsb' 12 4 ∧
    (∀ n : BitVec 4, (unmaskedRegister (setCoef cs 7 (cs[7] ^^^ n.setWidth 16))).extractLsb' 12 4 =
      (unmaskedRegister cs).extractLsb' 12 4) ∧
    (unmaskedRegister cs).extractLsb' 0 12 = (cs[7].extractLsb' 0 4).setWidth 12 <<< 8

/-- 41_checksum_validator.md section 4, R70 (c): every single-bit error is detected. Outside the field it changes the computed
checksum and not the embedded one; inside the field the other way round. -/
def Obligations.SingleBitErrorsDetected : Prop :=
  ∀ (f : CrcField) (cs : Coeffs) (idx : BitVec 3) (k : Nat), k < 16 →
    if inField f idx k then crc4 f (flipBit idx k cs) = crc4 f cs ∧ embedded f (flipBit idx k cs) ≠ embedded f cs
    else crc4 f (flipBit idx k cs) ≠ crc4 f cs ∧ embedded f (flipBit idx k cs) = embedded f cs

/-- 41_checksum_validator.md section 4, R70 (a): the all-zero set passes, once all eight words are loaded; out of reset the
command is refused. -/
def Obligations.AllZeroSetPasses : Prop :=
  (∀ s : Machine.State, s.coef = Vector.replicate 8 0 → s.loaded = 0xFF →
    ∃ t, exec .crcv s = .next t ∧ t.valid = true ∧ t.crcCalc = 0 ∧ t.crcEmb = 0) ∧
  exec .crcv State.reset = .next { State.reset with errSeq := true }

/-! ### The compensation engine -/

/-- 00_scope.md section 6 (R9): division rounds toward zero; by a power of two it is the arithmetic shift right, after adding
`2^k − 1` to a negative numerator. -/
def Obligations.DivisionRoundsTowardZero : Prop :=
  (∀ n d : Int, 0 < d → tdiv n d = n.tdiv d) ∧
  (∀ (n : Int) (k : Nat), tdiv n (2 ^ k) = if 0 ≤ n then n >>> k else (n + (2 ^ k - 1)) >>> k) ∧
  tdiv (-29059) (2 ^ 23) = 0 ∧ (-29059 : Int) >>> 23 = -1

/-- 42_compensation_engine.md R89: `comp` at `VLT_EN` = 0 is the listed formula, with core's truncated division. -/
def Obligations.CompIsTheListedFormula : Prop :=
  ∀ (d1 d2 : RawCode) (cs : Coeffs),
    let dT : Int := d2.toNat - cs[5].toNat * 256
    let temp1 : Int := 2000 + (dT * cs[6].toNat).tdiv 8388608
    let t2 : Int := if temp1 < 2000 then (3 * (dT * dT)).tdiv 8589934592 else 0
    let off2 : Int := if temp1 < 2000 then (3 * (temp1 - 2000) ^ 2).tdiv 8 else 0
    let sens2 : Int := if temp1 < 2000 then (7 * (temp1 - 2000) ^ 2).tdiv 8 else 0
    let off : Int := cs[2].toNat * 262144 + (cs[4].toNat * dT).tdiv 32 - off2
    let sens : Int := cs[1].toNat * 131072 + (cs[3].toNat * dT).tdiv 128 - sens2
    (comp false d1 d2 cs).temp = temp1 - t2 ∧
      (comp false d1 d2 cs).p = ((d1.toNat * sens).tdiv 2097152 - off).tdiv 32768

/-- 42_compensation_engine.md R76: the branch tests the first-order temperature, strictly; it is taken exactly when
`n1 <= −8388608`, which needs `dT < 0` and `C[6] > 0`; else the corrections are 0. -/
def Obligations.LowBranchCondition : Prop :=
  ∀ (d1 d2 : RawCode) (cs : Coeffs), let c := comp false d1 d2 cs
    (c.temp1 < 2000 ↔ c.n1 ≤ -8388608) ∧ (c.temp1 < 2000 → c.dT < 0 ∧ 0 < cs[6].toNat) ∧
    (c.temp1 < 2000 → c.t2 = (3 * (c.dT * c.dT)) / 8589934592 ∧ c.off2 = (3 * (c.temp1 - 2000) ^ 2) / 8 ∧
      c.sens2 = (7 * (c.temp1 - 2000) ^ 2) / 8) ∧
    (2000 ≤ c.temp1 → c.t2 = 0 ∧ c.off2 = 0 ∧ c.sens2 = 0)

/-- 42_compensation_engine.md R90: the table of bounds, the attained ends, and the largest magnitude. -/
def Obligations.IntermediatesWithinBounds : Prop :=
  (∀ (d1 d2 : RawCode) (cs : Coeffs), let c := comp false d1 d2 cs
    (-16776960 ≤ c.dT ∧ c.dT ≤ 16777215) ∧ (-1099478073600 ≤ c.n1 ∧ c.n1 ≤ 1099494785025) ∧
    (-129068 ≤ c.temp1 ∧ c.temp1 ≤ 133069) ∧
    (c.temp1 < 2000 → (0 ≤ 3 * (c.dT * c.dT) ∧ 3 * (c.dT * c.dT) ≤ 844399160524800) ∧
      (-131068 ≤ c.temp1 - 2000 ∧ c.temp1 - 2000 ≤ -1) ∧
      (1 ≤ (c.temp1 - 2000) ^ 2 ∧ (c.temp1 - 2000) ^ 2 ≤ 17178820624) ∧
      (7 ≤ 7 * (c.temp1 - 2000) ^ 2 ∧ 7 * (c.temp1 - 2000) ^ 2 ≤ 120251744368)) ∧
    (0 ≤ c.t2 ∧ c.t2 ≤ 98301) ∧ (0 ≤ c.off2 ∧ c.off2 ≤ 6442057734) ∧ (0 ≤ c.sens2 ∧ c.sens2 ≤ 15031468046) ∧
    (-1099478073600 ≤ cs[4].toNat * c.dT ∧ cs[4].toNat * c.dT ≤ 1099494785025) ∧
    (-1099478073600 ≤ cs[3].toNat * c.dT ∧ cs[3].toNat * c.dT ≤ 1099494785025) ∧
    (-34358689800 ≤ c.off1 ∧ c.off1 ≤ 51538819072) ∧ (-8589672450 ≤ c.sens1 ∧ c.sens1 ≤ 17179606528) ∧
    (-227369 ≤ c.temp ∧ c.temp ≤ 133069) ∧ (-40800747534 ≤ c.off ∧ c.off ≤ 51538819072) ∧
    (-23621140496 ≤ c.sens ∧ c.sens ≤ 17179606528) ∧
    (-396296952646598640 ≤ c.num ∧ c.num ≤ 288225952335659520) ∧ (-188969112704 ≤ c.q1 ∧ c.q1 ≤ 137436844032) ∧
    (-240507931776 ≤ c.diff ∧ c.diff ≤ 178237591566) ∧ (-7339719 ≤ c.p ∧ c.p ≤ 5439379) ∧
    (-2 ^ 59 < c.num ∧ c.num < 2 ^ 59)) ∧
  (let cs : Coeffs := Vector.replicate 8 65535
    let c := comp false 16777215 0 cs
    c.dT = -16776960 ∧ c.n1 = -1099478073600 ∧ c.temp1 = -129068 ∧ c.t2 = 98301 ∧ c.temp1 - 2000 = -131068 ∧
      (c.temp1 - 2000) ^ 2 = 17178820624 ∧ c.off2 = 6442057734 ∧ c.sens2 = 15031468046 ∧
      cs[4].toNat * c.dT = -1099478073600 ∧ cs[3].toNat * c.dT = -1099478073600 ∧ c.temp = -227369 ∧ c.p = -2948899) ∧
  (let cs : Coeffs := #v[0, 0, 65535, 0, 65535, 0, 65535, 0]
    let c := comp false 0 16777215 cs
    c.dT = 16777215 ∧ c.n1 = 1099494785025 ∧ c.temp1 = 133069 ∧ c.t2 = 0 ∧ c.off2 = 0 ∧ c.sens2 = 0 ∧
      cs[4].toNat * c.dT = 1099494785025 ∧ c.temp = 133069 ∧ c.off = 51538819072) ∧
  (∃ (d1 d2 : RawCode) (cs : Coeffs), cs[3].toNat * (comp false d1 d2 cs).dT = 1099494785025) ∧
  ∃ (d1 d2 : RawCode) (cs : Coeffs), (comp false d1 d2 cs).temp1 - 2000 = -1

/-- 42_compensation_engine.md R91: every value held in 32 bits, the narrowed ones among them, is returned whole, and every
other value of the engine, each product, square and quotient of R74 to R86 included, fits signed 64 bits. -/
def Obligations.NarrowingLosesNothing : Prop :=
  ∀ (d1 d2 : RawCode) (cs : Coeffs), let c := comp false d1 d2 cs
    let x := c.temp1 - 2000
    (∀ v ∈ [uint cs[5] * 256, c.dT, c.temp1, c.t2, c.temp1 - c.t2, c.temp, c.p], (trunc32 v).toInt = v) ∧
    (∀ v ∈ [c.n1, tdiv c.n1 8388608, c.dT * c.dT, 3 * (c.dT * c.dT), tdiv (3 * (c.dT * c.dT)) 8589934592, x, x * x, 3 * (x * x),
        7 * (x * x), c.off2, c.sens2, uint cs[2] * 262144, uint cs[4] * c.dT, tdiv (uint cs[4] * c.dT) 32, c.off1,
        uint cs[1] * 131072, uint cs[3] * c.dT, tdiv (uint cs[3] * c.dT) 128, c.sens1, c.off, c.sens, c.num, c.q1, c.diff, c.p],
      fitsS64 v = true) ∧
    (-227369 ≤ c.temp1 - c.t2 ∧ c.temp1 - c.t2 ≤ 133069) ∧ compFits c = true

/-- 42_compensation_engine.md section 4 (R89): the wrapping two's-complement widths of the source give the same two results
as unbounded integers, on every input. -/
def Obligations.NamedWidthsAgreeWithIntegers : Prop :=
  ∀ (d1 d2 : RawCode) (cs : Coeffs), (fixTemp d2 cs).toInt = (comp false d1 d2 cs).temp ∧
    (fixP d1 d2 cs).toInt = (comp false d1 d2 cs).p

/-- 42_compensation_engine.md section 6 (R93): with the coefficients and `D2` fixed, `p` does not decrease in `D1` where
`SENS >= 0`, and does not increase where `SENS <= 0`. -/
def Obligations.PressureMonotoneInD1 : Prop :=
  ∀ (d1 d1' d2 : RawCode) (cs : Coeffs), d1.toNat ≤ d1'.toNat →
    (0 ≤ (comp false d1 d2 cs).sens → (comp false d1 d2 cs).p ≤ (comp false d1' d2 cs).p) ∧
    ((comp false d1 d2 cs).sens ≤ 0 → (comp false d1' d2 cs).p ≤ (comp false d1 d2 cs).p)

/-- 42_compensation_engine.md R92 and R94 (f), sections 4 and 6: the reading depends on `D1`, `D2`, `C[1]` to `C[6]` and the
instance's parameters alone; no other state, `C[0]` and `C[7]` among it, leaks into it. -/
def Obligations.ReadingDependsOnlyOnItsInputs : Prop :=
  ∀ s s' t t' : Machine.State, s.valid = true → s.d1v = true → s.d2v = true → s'.valid = true → s'.d1v = true →
    s'.d2v = true → s.params = s'.params → s.d1 = s'.d1 → s.d2 = s'.d2 →
    (∀ idx : BitVec 3, idx ≠ 0 → idx ≠ 7 → coefAt s.coef idx = coefAt s'.coef idx) →
    exec .conv s = .next t → exec .conv s' = .next t' → t.temp = t'.temp ∧ t.p = t'.p

/-! ### The handshake, cycle by cycle -/

/-- 70_reset_and_hazards.md section 3 (R115): a word presented while `cmd_ready` = 0 is not taken and has no effect. -/
def Obligations.BusyBlockIgnoresPresentedWord : Prop :=
  ∀ (t : Timed) (b : InFlight) (pin : PortIn) (valid : Bool) (cmd : Word), t.busy = some b → pin.rst = false →
    t.ready pin = false ∧ cycle { pin with cmdValid := valid, cmd := cmd } t = cycle pin t

/-- 70_reset_and_hazards.md section 4 (R118, R120): `LAT_CRCV` and `LAT_CONV` are the latencies of an accepted `CRCV` and an
accepted `CONV`, `LAT_LOAD` that of every other command and of every refused or illegal word, each at least 1; a command
taken keeps `cmd_ready` at 0 for exactly its latency, and then its result is there. -/
def Obligations.CommandCompletesAfterItsLatency : Prop :=
  (1 ≤ latLoad ∧ 1 ≤ latCrcv ∧ 1 ≤ latConv) ∧
  (∀ (cmd : Word) (s : Machine.State), latency cmd s = match decode cmd with
    | .error _ => latLoad
    | .ok i => if accepts i s then (match i with
        | .crcv => latCrcv
        | .conv => latConv
        | _ => latLoad) else latLoad) ∧
  ∀ (t : Timed) (pin : PortIn) (pins : List PortIn), t.busy = none → pin.rst = false → pin.cmdValid = true →
    (∀ q ∈ pins, q.rst = false) →
    (pins.length < latency pin.cmd t.arch → ∃ u, cycles (pin :: pins) t = .next u ∧ u.busy.isSome = true ∧ u.arch = t.arch) ∧
    (pins.length = latency pin.cmd t.arch →
      ∃ u a, takeWord pin.cmd t.arch = .next a ∧ cycles (pin :: pins) t = .next u ∧ u.busy = none ∧ u.arch = a)

/-- 70_reset_and_hazards.md section 3 (R116): with a command in progress `cmd_ready` is 0 and every output shows the state before
it until the output's switching time, and the state after it from then on, so it switches once: each further cycle counts
on towards that time or completes the command. Without a command in progress the outputs show the state. When an output
switches is free (log 8). -/
def Obligations.OutputsShowOldOrNewState : Prop :=
  (∀ (t : Timed) (pin : PortIn), t.busy = none → t.outputs pin = outputs pin t.arch) ∧
  ∀ (t : Timed) (b : InFlight) (a : Machine.State) (pin : PortIn), t.busy = some b → takeWord b.cmd t.arch = .next a →
    (t.outputs pin).cmdReady = false ∧
    (∀ port : OutPort, let seen := if b.elapsed < Config.switchAfter port t.taken then t.arch else a
      t.shown port = seen ∧ portShows port pin.cSel seen (t.outputs pin)) ∧
    (pin.rst = false → ∃ u : Timed, cycle pin t = .next u ∧
      if b.left ≤ 1 then u.busy = none ∧ u.arch = a
      else u.busy = some ⟨b.cmd, b.left - 1, b.elapsed + 1⟩ ∧ u.arch = t.arch ∧ u.taken = t.taken)

/-- 70_reset_and_hazards.md section 3 (R116), 00_scope.md R11: the block seen cycle by cycle, whatever the latencies and
wherever resets fall, is at every moment in the state that `step` reaches on the cycles the architecture sees, less the one
command still in progress. -/
def Obligations.HandshakeRefinesStep : Prop :=
  ∀ (pins : List PortIn) (t : Timed), t.busy = none → ∃ (u : Timed) (rest : List PortIn),
    cycles pins t = .next u ∧ rest.length = (if u.busy.isSome then 1 else 0) ∧ rest <:+ visible pins t ∧
    Host.Core.run Sys2Proof.core ((visible pins t).length - rest.length) (setInput (visible pins t) t.arch) =
      .next (setInput rest u.arch)

/-! ### What the spec records for the host -/

/-- 20_memory.md sections 1 and 2 (R32, R34, R35): the host's words from the wire, most significant byte first, and the PROM
command bytes. -/
def Obligations.HostAssemblesBigEndian : Prop :=
  (∀ b0 b1 : Byte, (HostSide.coefFromWire b0 b1).toNat = b0.toNat * 256 + b1.toNat) ∧
  (∀ b0 b1 b2 : Byte, (HostSide.codeFromWire b0 b1 b2).toNat = b0.toNat * 65536 + b1.toNat * 256 + b2.toNat) ∧
  ∀ i : BitVec 3, (HostSide.promRead i).toNat = 0xA0 + 2 * i.toNat
end

