-- ==== Sys2Proof/Laws/Checksum.lean ====
section
/-! SUPPORT. The small lemmas of the shift register (41_checksum_validator.md R63). -/

namespace Sys2Proof.Machine

/-- One shift is linear over exclusive-or. -/
theorem shiftBit_xor (a b : BitVec 16) : shiftBit (a ^^^ b) = shiftBit a ^^^ shiftBit b := by
  unfold shiftBit
  rw [BitVec.getLsbD_xor, BitVec.shiftLeft_xor_distrib]
  have cancel (x y k : BitVec 16) : (x ^^^ k) ^^^ (y ^^^ k) = x ^^^ y := by
    rw [BitVec.xor_assoc, BitVec.xor_comm y k, ← BitVec.xor_assoc k k y, BitVec.xor_self, BitVec.zero_xor]
  cases a.getLsbD 15 <;> cases b.getLsbD 15
  · rfl
  · exact BitVec.xor_assoc _ _ _
  · exact (BitVec.xor_assoc _ _ _).trans ((congrArg _ (BitVec.xor_comm _ _)).trans (BitVec.xor_assoc _ _ _).symm)
  · exact (cancel _ _ _).symm

/-- Any number of shifts is linear. -/
theorem shiftBits_xor (n : Nat) (a b : BitVec 16) : shiftBits n (a ^^^ b) = shiftBits n a ^^^ shiftBits n b := by
  induction n generalizing a b with
  | zero => rfl
  | succ n ih => simp only [shiftBits, shiftBit_xor, ih]

/-- The register from 0 stays at 0 without message bits. -/
theorem shiftBits_zero (n : Nat) : shiftBits n 0 = 0 := by
  induction n with
  | zero => rfl
  | succ n ih => exact ih

/-- A byte step is linear in the register and the byte together. -/
theorem stepByte_xor (a b : BitVec 16) (x y : Byte) :
    stepByte (a ^^^ b) (x ^^^ y) = stepByte a x ^^^ stepByte b y := by
  unfold stepByte
  rw [← shiftBits_xor, BitVec.setWidth_xor]
  congr 1
  ac_rfl

/-- The mask is one of the two legal values of 00_scope.md R6. -/
theorem crcFieldMask_legal (f : CrcField) : crcFieldMask f = 0x000F ∨ crcFieldMask f = 0x00FF := by
  cases f
  · exact .inl rfl
  · exact .inr rfl

/-- The unmasked register runs over the words one after another, as the masked one does (R68). -/
theorem unmaskedRegister_eq (cs : Coeffs) : unmaskedRegister cs =
    (wordBytes cs[0] ++ wordBytes cs[1] ++ wordBytes cs[2] ++ wordBytes cs[3] ++ wordBytes cs[4] ++ wordBytes cs[5] ++
      wordBytes cs[6] ++ wordBytes cs[7]).foldl stepByte 0 := by
  unfold unmaskedRegister
  congr 1
  obtain ⟨⟨l⟩, h⟩ := cs
  match l, h with
  | [_, _, _, _, _, _, _, _], _ => rfl

end Sys2Proof.Machine
end

