-- ==== Sys2Proof/Laws/Compensation.lean ====
section
/-! SUPPORT. The small lemmas of division toward zero (00_scope.md R9) and of the operands of the compensation. -/

namespace Sys2Proof.Machine

/-- The quotient of R9 is core's truncated division. -/
theorem tdiv_eq_int_tdiv (n d : Int) : tdiv n d = n.tdiv d := by
  unfold tdiv
  split
  case isTrue h => exact (Int.tdiv_eq_ediv_of_nonneg h).symm
  case isFalse h =>
    rw [← Int.tdiv_eq_ediv_of_nonneg (by omega : 0 ≤ -n), Int.neg_tdiv, neg_neg]

/-- Division toward zero is non-decreasing. -/
theorem tdiv_mono {a b d : Int} (hd : 0 < d) (h : a ≤ b) : tdiv a d ≤ tdiv b d := by
  unfold tdiv
  split <;> split
  · exact Int.ediv_le_ediv hd h
  · omega
  · have h1 := Int.ediv_nonneg (by omega : 0 ≤ -a) hd.le
    have h2 := Int.ediv_nonneg (by omega : 0 ≤ b) hd.le
    omega
  · exact neg_le_neg (Int.ediv_le_ediv hd (neg_le_neg h))

/-- A quotient lies between the quotients of a numerator's bounds. -/
theorem tdiv_bounds {n lo hi d : Int} (hd : 0 < d) (h : lo ≤ n ∧ n ≤ hi) : tdiv lo d ≤ tdiv n d ∧ tdiv n d ≤ tdiv hi d :=
  ⟨tdiv_mono hd h.1, tdiv_mono hd h.2⟩

/-- An unsigned operand is a natural number below its width's bound. -/
theorem uint_bounds {n : Nat} (v : BitVec n) : 0 ≤ uint v ∧ uint v ≤ 2 ^ n - 1 := by
  have h : (v.toNat : Int) < 2 ^ n := by exact_mod_cast v.isLt
  exact ⟨Int.natCast_nonneg _, by unfold uint; omega⟩

/-- A product of a non-negative factor of bounded size with a bounded one. -/
theorem mul_bounds {a b m lo hi : Int} (ha : 0 ≤ a ∧ a ≤ m) (hb : lo ≤ b ∧ b ≤ hi) (hlo : lo ≤ 0) (hhi : 0 ≤ hi) :
    m * lo ≤ a * b ∧ a * b ≤ m * hi :=
  ⟨(mul_le_mul_of_nonpos_right ha.2 hlo).trans (mul_le_mul_of_nonneg_left hb.1 ha.1),
    (mul_le_mul_of_nonneg_left hb.2 ha.1).trans (mul_le_mul_of_nonneg_right ha.2 hhi)⟩

/-- A value within signed 32 bits survives the narrowing of R8. -/
theorem trunc32_toInt {v : Int} (h : -2 ^ 31 ≤ v ∧ v < 2 ^ 31) : (trunc32 v).toInt = v := by
  unfold trunc32
  rw [BitVec.toInt_ofInt]
  exact Int.bmod_eq_of_le_mul_two (by omega) (by omega)

/-- What it is for a value to be held in signed 64 bits. -/
theorem fitsS64_iff (v : Int) : fitsS64 v = true ↔ -2 ^ 63 ≤ v ∧ v < 2 ^ 63 := by
  unfold fitsS64
  rw [Bool.and_eq_true, decide_eq_true_iff, decide_eq_true_iff]

end Sys2Proof.Machine
end

