-- ==== Sys2Proof/Laws/Decode.lean ====
section
/-! SUPPORT. The decoder by its rows (30_encoding.md R45): a word that matches a row is read by that row, and only rows of
the table are ever read. -/

namespace Sys2Proof

/-- A word cannot match two rows that fix a common bit differently. -/
theorem not_spells_of_disjoint {a b : OpcodeRow} {cmd : Word} (h : a.disjoint b = true) (ha : a.spells cmd = true) :
    b.spells cmd = false := by
  rw [Bool.eq_false_iff]
  intro hb
  have ea : cmd &&& a.mask = a.bits := beq_iff_eq.mp ha
  have eb : cmd &&& b.mask = b.bits := beq_iff_eq.mp hb
  refine absurd (?_ : a.mask &&& b.mask &&& (a.bits ^^^ b.bits) = 0#32) (bne_iff_ne.mp h)
  ext k hk
  have bitA := congrArg (·[k]) ea
  have bitB := congrArg (·[k]) eb
  simp only [BitVec.getElem_and] at bitA bitB
  simp only [BitVec.getElem_and, BitVec.getElem_xor, BitVec.getElem_zero, ← bitA, ← bitB]
  cases cmd[k] <;> cases a.mask[k] <;> cases b.mask[k] <;> rfl

/-- The seven rows are disjoint (R45). -/
theorem opcodeRows_disjoint : opcodeRows.Pairwise (fun a b => a.disjoint b = true) := by decide

/-- In a list of disjoint rows the first match is the only one. -/
theorem find_row {rows : List OpcodeRow} {r : OpcodeRow} {cmd : Word}
    (hd : rows.Pairwise (fun a b => a.disjoint b = true)) (hr : r ∈ rows) (hs : r.spells cmd = true) :
    rows.find? (·.spells cmd) = some r := by
  induction rows with
  | nil => cases hr
  | cons a rest ih =>
    obtain ⟨ha, hrest⟩ := List.pairwise_cons.mp hd
    rcases List.mem_cons.mp hr with rfl | hmem
    · exact List.find?_cons_of_pos hs
    · have hna : ¬(a.spells cmd = true) := fun h => by
        rw [not_spells_of_disjoint (ha r hmem) h] at hs
        cases hs
      exact (List.find?_cons_of_neg (p := fun x : OpcodeRow => x.spells cmd) hna).trans (ih hrest hmem)

/-- A word that matches a row decodes by that row. -/
theorem decode_of_row {r : OpcodeRow} {cmd : Word} (hr : r ∈ opcodeRows) (hs : r.spells cmd = true) :
    decode cmd = .ok (r.read cmd) := by
  unfold decode
  rw [find_row opcodeRows_disjoint hr hs]

/-- A decoded command was read by a row the word matches. -/
theorem row_of_decode {cmd : Word} {i : Instr} (h : decode cmd = .ok i) :
    ∃ r ∈ opcodeRows, r.spells cmd = true ∧ r.read cmd = i := by
  unfold decode at h
  cases hf : opcodeRows.find? (·.spells cmd) with
  | none => simp only [hf, reduceCtorEq] at h
  | some r =>
    simp only [hf, Except.ok.injEq] at h
    exact ⟨r, List.mem_of_find?_eq_some hf, List.find?_some (p := fun x : OpcodeRow => x.spells cmd) hf, h⟩

/-- A word decodes to an error exactly when it matches no row. -/
theorem decode_error_iff {cmd : Word} : (∃ e, decode cmd = .error e) ↔ ∀ r ∈ opcodeRows, r.spells cmd = false := by
  unfold decode
  cases hf : opcodeRows.find? (·.spells cmd) with
  | none =>
    refine ⟨fun _ r hr => ?_, fun _ => ⟨_, rfl⟩⟩
    exact Bool.eq_false_iff.mpr (List.find?_eq_none.mp hf r hr)
  | some r =>
    refine ⟨fun ⟨_, h⟩ => (by cases h), fun h => ?_⟩
    have hs := List.find?_some (p := fun x : OpcodeRow => x.spells cmd) hf
    exact absurd hs (Bool.eq_false_iff.mp (h r (List.mem_of_find?_eq_some hf)))

end Sys2Proof
end

