-- ==== Sys2Proof/Laws/State.lean ====
section
/-! SUPPORT. What each register update leaves in each field: one lemma per field per update, so that no proof unfolds an update. -/

namespace Sys2Proof.Machine

@[simp] theorem writeCoef_coef (idx : BitVec 3) (w : Coef) (s : State) : (writeCoef idx w s).coef = setCoef s.coef idx w := rfl
@[simp] theorem writeCoef_loaded (idx : BitVec 3) (w : Coef) (s : State) : (writeCoef idx w s).loaded = s.loaded ||| (1#8 <<< idx.toNat) := rfl
@[simp] theorem writeCoef_d1 (idx : BitVec 3) (w : Coef) (s : State) : (writeCoef idx w s).d1 = s.d1 := rfl
@[simp] theorem writeCoef_d2 (idx : BitVec 3) (w : Coef) (s : State) : (writeCoef idx w s).d2 = s.d2 := rfl
@[simp] theorem writeCoef_d1v (idx : BitVec 3) (w : Coef) (s : State) : (writeCoef idx w s).d1v = s.d1v := rfl
@[simp] theorem writeCoef_d2v (idx : BitVec 3) (w : Coef) (s : State) : (writeCoef idx w s).d2v = s.d2v := rfl
@[simp] theorem writeCoef_crcCalc (idx : BitVec 3) (w : Coef) (s : State) : (writeCoef idx w s).crcCalc = s.crcCalc := rfl
@[simp] theorem writeCoef_crcEmb (idx : BitVec 3) (w : Coef) (s : State) : (writeCoef idx w s).crcEmb = s.crcEmb := rfl
@[simp] theorem writeCoef_crcDone (idx : BitVec 3) (w : Coef) (s : State) : (writeCoef idx w s).crcDone = false := rfl
@[simp] theorem writeCoef_valid (idx : BitVec 3) (w : Coef) (s : State) : (writeCoef idx w s).valid = s.valid := rfl
@[simp] theorem writeCoef_temp (idx : BitVec 3) (w : Coef) (s : State) : (writeCoef idx w s).temp = s.temp := rfl
@[simp] theorem writeCoef_p (idx : BitVec 3) (w : Coef) (s : State) : (writeCoef idx w s).p = s.p := rfl
@[simp] theorem writeCoef_convDone (idx : BitVec 3) (w : Coef) (s : State) : (writeCoef idx w s).convDone = s.convDone := rfl
@[simp] theorem writeCoef_errSeq (idx : BitVec 3) (w : Coef) (s : State) : (writeCoef idx w s).errSeq = s.errSeq := rfl
@[simp] theorem writeCoef_errIll (idx : BitVec 3) (w : Coef) (s : State) : (writeCoef idx w s).errIll = s.errIll := rfl
@[simp] theorem writeCoef_params (idx : BitVec 3) (w : Coef) (s : State) : (writeCoef idx w s).params = s.params := rfl
@[simp] theorem writeCoef_input (idx : BitVec 3) (w : Coef) (s : State) : (writeCoef idx w s).input = s.input := rfl

@[simp] theorem writeD1_coef (d : RawCode) (s : State) : (writeD1 d s).coef = s.coef := rfl
@[simp] theorem writeD1_loaded (d : RawCode) (s : State) : (writeD1 d s).loaded = s.loaded := rfl
@[simp] theorem writeD1_d1 (d : RawCode) (s : State) : (writeD1 d s).d1 = d := rfl
@[simp] theorem writeD1_d2 (d : RawCode) (s : State) : (writeD1 d s).d2 = s.d2 := rfl
@[simp] theorem writeD1_d1v (d : RawCode) (s : State) : (writeD1 d s).d1v = true := rfl
@[simp] theorem writeD1_d2v (d : RawCode) (s : State) : (writeD1 d s).d2v = s.d2v := rfl
@[simp] theorem writeD1_crcCalc (d : RawCode) (s : State) : (writeD1 d s).crcCalc = s.crcCalc := rfl
@[simp] theorem writeD1_crcEmb (d : RawCode) (s : State) : (writeD1 d s).crcEmb = s.crcEmb := rfl
@[simp] theorem writeD1_crcDone (d : RawCode) (s : State) : (writeD1 d s).crcDone = s.crcDone := rfl
@[simp] theorem writeD1_valid (d : RawCode) (s : State) : (writeD1 d s).valid = s.valid := rfl
@[simp] theorem writeD1_temp (d : RawCode) (s : State) : (writeD1 d s).temp = s.temp := rfl
@[simp] theorem writeD1_p (d : RawCode) (s : State) : (writeD1 d s).p = s.p := rfl
@[simp] theorem writeD1_convDone (d : RawCode) (s : State) : (writeD1 d s).convDone = false := rfl
@[simp] theorem writeD1_errSeq (d : RawCode) (s : State) : (writeD1 d s).errSeq = s.errSeq := rfl
@[simp] theorem writeD1_errIll (d : RawCode) (s : State) : (writeD1 d s).errIll = s.errIll := rfl
@[simp] theorem writeD1_params (d : RawCode) (s : State) : (writeD1 d s).params = s.params := rfl
@[simp] theorem writeD1_input (d : RawCode) (s : State) : (writeD1 d s).input = s.input := rfl

@[simp] theorem writeD2_coef (d : RawCode) (s : State) : (writeD2 d s).coef = s.coef := rfl
@[simp] theorem writeD2_loaded (d : RawCode) (s : State) : (writeD2 d s).loaded = s.loaded := rfl
@[simp] theorem writeD2_d1 (d : RawCode) (s : State) : (writeD2 d s).d1 = s.d1 := rfl
@[simp] theorem writeD2_d2 (d : RawCode) (s : State) : (writeD2 d s).d2 = d := rfl
@[simp] theorem writeD2_d1v (d : RawCode) (s : State) : (writeD2 d s).d1v = s.d1v := rfl
@[simp] theorem writeD2_d2v (d : RawCode) (s : State) : (writeD2 d s).d2v = true := rfl
@[simp] theorem writeD2_crcCalc (d : RawCode) (s : State) : (writeD2 d s).crcCalc = s.crcCalc := rfl
@[simp] theorem writeD2_crcEmb (d : RawCode) (s : State) : (writeD2 d s).crcEmb = s.crcEmb := rfl
@[simp] theorem writeD2_crcDone (d : RawCode) (s : State) : (writeD2 d s).crcDone = s.crcDone := rfl
@[simp] theorem writeD2_valid (d : RawCode) (s : State) : (writeD2 d s).valid = s.valid := rfl
@[simp] theorem writeD2_temp (d : RawCode) (s : State) : (writeD2 d s).temp = s.temp := rfl
@[simp] theorem writeD2_p (d : RawCode) (s : State) : (writeD2 d s).p = s.p := rfl
@[simp] theorem writeD2_convDone (d : RawCode) (s : State) : (writeD2 d s).convDone = false := rfl
@[simp] theorem writeD2_errSeq (d : RawCode) (s : State) : (writeD2 d s).errSeq = s.errSeq := rfl
@[simp] theorem writeD2_errIll (d : RawCode) (s : State) : (writeD2 d s).errIll = s.errIll := rfl
@[simp] theorem writeD2_params (d : RawCode) (s : State) : (writeD2 d s).params = s.params := rfl
@[simp] theorem writeD2_input (d : RawCode) (s : State) : (writeD2 d s).input = s.input := rfl

@[simp] theorem writeChecksum_coef (k : BitVec 4) (e : BitVec 8) (s : State) : (writeChecksum k e s).coef = s.coef := rfl
@[simp] theorem writeChecksum_loaded (k : BitVec 4) (e : BitVec 8) (s : State) : (writeChecksum k e s).loaded = s.loaded := rfl
@[simp] theorem writeChecksum_d1 (k : BitVec 4) (e : BitVec 8) (s : State) : (writeChecksum k e s).d1 = s.d1 := rfl
@[simp] theorem writeChecksum_d2 (k : BitVec 4) (e : BitVec 8) (s : State) : (writeChecksum k e s).d2 = s.d2 := rfl
@[simp] theorem writeChecksum_d1v (k : BitVec 4) (e : BitVec 8) (s : State) : (writeChecksum k e s).d1v = s.d1v := rfl
@[simp] theorem writeChecksum_d2v (k : BitVec 4) (e : BitVec 8) (s : State) : (writeChecksum k e s).d2v = s.d2v := rfl
@[simp] theorem writeChecksum_crcCalc (k : BitVec 4) (e : BitVec 8) (s : State) : (writeChecksum k e s).crcCalc = k := rfl
@[simp] theorem writeChecksum_crcEmb (k : BitVec 4) (e : BitVec 8) (s : State) : (writeChecksum k e s).crcEmb = e := rfl
@[simp] theorem writeChecksum_crcDone (k : BitVec 4) (e : BitVec 8) (s : State) : (writeChecksum k e s).crcDone = true := rfl
@[simp] theorem writeChecksum_valid (k : BitVec 4) (e : BitVec 8) (s : State) : (writeChecksum k e s).valid = (k.setWidth 8 == e) := rfl
@[simp] theorem writeChecksum_temp (k : BitVec 4) (e : BitVec 8) (s : State) : (writeChecksum k e s).temp = s.temp := rfl
@[simp] theorem writeChecksum_p (k : BitVec 4) (e : BitVec 8) (s : State) : (writeChecksum k e s).p = s.p := rfl
@[simp] theorem writeChecksum_convDone (k : BitVec 4) (e : BitVec 8) (s : State) : (writeChecksum k e s).convDone = s.convDone := rfl
@[simp] theorem writeChecksum_errSeq (k : BitVec 4) (e : BitVec 8) (s : State) : (writeChecksum k e s).errSeq = s.errSeq := rfl
@[simp] theorem writeChecksum_errIll (k : BitVec 4) (e : BitVec 8) (s : State) : (writeChecksum k e s).errIll = s.errIll := rfl
@[simp] theorem writeChecksum_params (k : BitVec 4) (e : BitVec 8) (s : State) : (writeChecksum k e s).params = s.params := rfl
@[simp] theorem writeChecksum_input (k : BitVec 4) (e : BitVec 8) (s : State) : (writeChecksum k e s).input = s.input := rfl

@[simp] theorem writeReading_coef (t q : BitVec 32) (s : State) : (writeReading t q s).coef = s.coef := rfl
@[simp] theorem writeReading_loaded (t q : BitVec 32) (s : State) : (writeReading t q s).loaded = s.loaded := rfl
@[simp] theorem writeReading_d1 (t q : BitVec 32) (s : State) : (writeReading t q s).d1 = s.d1 := rfl
@[simp] theorem writeReading_d2 (t q : BitVec 32) (s : State) : (writeReading t q s).d2 = s.d2 := rfl
@[simp] theorem writeReading_d1v (t q : BitVec 32) (s : State) : (writeReading t q s).d1v = s.d1v := rfl
@[simp] theorem writeReading_d2v (t q : BitVec 32) (s : State) : (writeReading t q s).d2v = s.d2v := rfl
@[simp] theorem writeReading_crcCalc (t q : BitVec 32) (s : State) : (writeReading t q s).crcCalc = s.crcCalc := rfl
@[simp] theorem writeReading_crcEmb (t q : BitVec 32) (s : State) : (writeReading t q s).crcEmb = s.crcEmb := rfl
@[simp] theorem writeReading_crcDone (t q : BitVec 32) (s : State) : (writeReading t q s).crcDone = s.crcDone := rfl
@[simp] theorem writeReading_valid (t q : BitVec 32) (s : State) : (writeReading t q s).valid = s.valid := rfl
@[simp] theorem writeReading_temp (t q : BitVec 32) (s : State) : (writeReading t q s).temp = t := rfl
@[simp] theorem writeReading_p (t q : BitVec 32) (s : State) : (writeReading t q s).p = q := rfl
@[simp] theorem writeReading_convDone (t q : BitVec 32) (s : State) : (writeReading t q s).convDone = true := rfl
@[simp] theorem writeReading_errSeq (t q : BitVec 32) (s : State) : (writeReading t q s).errSeq = s.errSeq := rfl
@[simp] theorem writeReading_errIll (t q : BitVec 32) (s : State) : (writeReading t q s).errIll = s.errIll := rfl
@[simp] theorem writeReading_params (t q : BitVec 32) (s : State) : (writeReading t q s).params = s.params := rfl
@[simp] theorem writeReading_input (t q : BitVec 32) (s : State) : (writeReading t q s).input = s.input := rfl

@[simp] theorem clearAll_coef (s : State) : (clearAll s).coef = Vector.replicate 8 0 := rfl
@[simp] theorem clearAll_loaded (s : State) : (clearAll s).loaded = 0 := rfl
@[simp] theorem clearAll_d1 (s : State) : (clearAll s).d1 = 0 := rfl
@[simp] theorem clearAll_d2 (s : State) : (clearAll s).d2 = 0 := rfl
@[simp] theorem clearAll_d1v (s : State) : (clearAll s).d1v = false := rfl
@[simp] theorem clearAll_d2v (s : State) : (clearAll s).d2v = false := rfl
@[simp] theorem clearAll_crcCalc (s : State) : (clearAll s).crcCalc = 0 := rfl
@[simp] theorem clearAll_crcEmb (s : State) : (clearAll s).crcEmb = 0 := rfl
@[simp] theorem clearAll_crcDone (s : State) : (clearAll s).crcDone = false := rfl
@[simp] theorem clearAll_valid (s : State) : (clearAll s).valid = false := rfl
@[simp] theorem clearAll_temp (s : State) : (clearAll s).temp = 0 := rfl
@[simp] theorem clearAll_p (s : State) : (clearAll s).p = 0 := rfl
@[simp] theorem clearAll_convDone (s : State) : (clearAll s).convDone = false := rfl
@[simp] theorem clearAll_errSeq (s : State) : (clearAll s).errSeq = s.errSeq := rfl
@[simp] theorem clearAll_errIll (s : State) : (clearAll s).errIll = s.errIll := rfl
@[simp] theorem clearAll_params (s : State) : (clearAll s).params = s.params := rfl
@[simp] theorem clearAll_input (s : State) : (clearAll s).input = s.input := rfl

@[simp] theorem raiseSeqError_coef (s : State) : (raiseSeqError s).coef = s.coef := rfl
@[simp] theorem raiseSeqError_loaded (s : State) : (raiseSeqError s).loaded = s.loaded := rfl
@[simp] theorem raiseSeqError_d1 (s : State) : (raiseSeqError s).d1 = s.d1 := rfl
@[simp] theorem raiseSeqError_d2 (s : State) : (raiseSeqError s).d2 = s.d2 := rfl
@[simp] theorem raiseSeqError_d1v (s : State) : (raiseSeqError s).d1v = s.d1v := rfl
@[simp] theorem raiseSeqError_d2v (s : State) : (raiseSeqError s).d2v = s.d2v := rfl
@[simp] theorem raiseSeqError_crcCalc (s : State) : (raiseSeqError s).crcCalc = s.crcCalc := rfl
@[simp] theorem raiseSeqError_crcEmb (s : State) : (raiseSeqError s).crcEmb = s.crcEmb := rfl
@[simp] theorem raiseSeqError_crcDone (s : State) : (raiseSeqError s).crcDone = s.crcDone := rfl
@[simp] theorem raiseSeqError_valid (s : State) : (raiseSeqError s).valid = s.valid := rfl
@[simp] theorem raiseSeqError_temp (s : State) : (raiseSeqError s).temp = s.temp := rfl
@[simp] theorem raiseSeqError_p (s : State) : (raiseSeqError s).p = s.p := rfl
@[simp] theorem raiseSeqError_convDone (s : State) : (raiseSeqError s).convDone = s.convDone := rfl
@[simp] theorem raiseSeqError_errSeq (s : State) : (raiseSeqError s).errSeq = true := rfl
@[simp] theorem raiseSeqError_errIll (s : State) : (raiseSeqError s).errIll = s.errIll := rfl
@[simp] theorem raiseSeqError_params (s : State) : (raiseSeqError s).params = s.params := rfl
@[simp] theorem raiseSeqError_input (s : State) : (raiseSeqError s).input = s.input := rfl

@[simp] theorem raiseIllegal_coef (s : State) : (raiseIllegal s).coef = s.coef := rfl
@[simp] theorem raiseIllegal_loaded (s : State) : (raiseIllegal s).loaded = s.loaded := rfl
@[simp] theorem raiseIllegal_d1 (s : State) : (raiseIllegal s).d1 = s.d1 := rfl
@[simp] theorem raiseIllegal_d2 (s : State) : (raiseIllegal s).d2 = s.d2 := rfl
@[simp] theorem raiseIllegal_d1v (s : State) : (raiseIllegal s).d1v = s.d1v := rfl
@[simp] theorem raiseIllegal_d2v (s : State) : (raiseIllegal s).d2v = s.d2v := rfl
@[simp] theorem raiseIllegal_crcCalc (s : State) : (raiseIllegal s).crcCalc = s.crcCalc := rfl
@[simp] theorem raiseIllegal_crcEmb (s : State) : (raiseIllegal s).crcEmb = s.crcEmb := rfl
@[simp] theorem raiseIllegal_crcDone (s : State) : (raiseIllegal s).crcDone = s.crcDone := rfl
@[simp] theorem raiseIllegal_valid (s : State) : (raiseIllegal s).valid = s.valid := rfl
@[simp] theorem raiseIllegal_temp (s : State) : (raiseIllegal s).temp = s.temp := rfl
@[simp] theorem raiseIllegal_p (s : State) : (raiseIllegal s).p = s.p := rfl
@[simp] theorem raiseIllegal_convDone (s : State) : (raiseIllegal s).convDone = s.convDone := rfl
@[simp] theorem raiseIllegal_errSeq (s : State) : (raiseIllegal s).errSeq = s.errSeq := rfl
@[simp] theorem raiseIllegal_errIll (s : State) : (raiseIllegal s).errIll = true := rfl
@[simp] theorem raiseIllegal_params (s : State) : (raiseIllegal s).params = s.params := rfl
@[simp] theorem raiseIllegal_input (s : State) : (raiseIllegal s).input = s.input := rfl

@[simp] theorem resetBlock_coef (s : State) : (resetBlock s).coef = Vector.replicate 8 0 := rfl
@[simp] theorem resetBlock_loaded (s : State) : (resetBlock s).loaded = 0 := rfl
@[simp] theorem resetBlock_d1 (s : State) : (resetBlock s).d1 = 0 := rfl
@[simp] theorem resetBlock_d2 (s : State) : (resetBlock s).d2 = 0 := rfl
@[simp] theorem resetBlock_d1v (s : State) : (resetBlock s).d1v = false := rfl
@[simp] theorem resetBlock_d2v (s : State) : (resetBlock s).d2v = false := rfl
@[simp] theorem resetBlock_crcCalc (s : State) : (resetBlock s).crcCalc = 0 := rfl
@[simp] theorem resetBlock_crcEmb (s : State) : (resetBlock s).crcEmb = 0 := rfl
@[simp] theorem resetBlock_crcDone (s : State) : (resetBlock s).crcDone = false := rfl
@[simp] theorem resetBlock_valid (s : State) : (resetBlock s).valid = false := rfl
@[simp] theorem resetBlock_temp (s : State) : (resetBlock s).temp = 0 := rfl
@[simp] theorem resetBlock_p (s : State) : (resetBlock s).p = 0 := rfl
@[simp] theorem resetBlock_convDone (s : State) : (resetBlock s).convDone = false := rfl
@[simp] theorem resetBlock_errSeq (s : State) : (resetBlock s).errSeq = false := rfl
@[simp] theorem resetBlock_errIll (s : State) : (resetBlock s).errIll = false := rfl
@[simp] theorem resetBlock_params (s : State) : (resetBlock s).params = s.params := rfl
@[simp] theorem resetBlock_input (s : State) : (resetBlock s).input = s.input := rfl

@[simp] theorem setInput_coef (rest : List PortIn) (s : State) : (setInput rest s).coef = s.coef := rfl
@[simp] theorem setInput_loaded (rest : List PortIn) (s : State) : (setInput rest s).loaded = s.loaded := rfl
@[simp] theorem setInput_d1 (rest : List PortIn) (s : State) : (setInput rest s).d1 = s.d1 := rfl
@[simp] theorem setInput_d2 (rest : List PortIn) (s : State) : (setInput rest s).d2 = s.d2 := rfl
@[simp] theorem setInput_d1v (rest : List PortIn) (s : State) : (setInput rest s).d1v = s.d1v := rfl
@[simp] theorem setInput_d2v (rest : List PortIn) (s : State) : (setInput rest s).d2v = s.d2v := rfl
@[simp] theorem setInput_crcCalc (rest : List PortIn) (s : State) : (setInput rest s).crcCalc = s.crcCalc := rfl
@[simp] theorem setInput_crcEmb (rest : List PortIn) (s : State) : (setInput rest s).crcEmb = s.crcEmb := rfl
@[simp] theorem setInput_crcDone (rest : List PortIn) (s : State) : (setInput rest s).crcDone = s.crcDone := rfl
@[simp] theorem setInput_valid (rest : List PortIn) (s : State) : (setInput rest s).valid = s.valid := rfl
@[simp] theorem setInput_temp (rest : List PortIn) (s : State) : (setInput rest s).temp = s.temp := rfl
@[simp] theorem setInput_p (rest : List PortIn) (s : State) : (setInput rest s).p = s.p := rfl
@[simp] theorem setInput_convDone (rest : List PortIn) (s : State) : (setInput rest s).convDone = s.convDone := rfl
@[simp] theorem setInput_errSeq (rest : List PortIn) (s : State) : (setInput rest s).errSeq = s.errSeq := rfl
@[simp] theorem setInput_errIll (rest : List PortIn) (s : State) : (setInput rest s).errIll = s.errIll := rfl
@[simp] theorem setInput_params (rest : List PortIn) (s : State) : (setInput rest s).params = s.params := rfl
@[simp] theorem setInput_input (rest : List PortIn) (s : State) : (setInput rest s).input = rest := rfl

/-- Consuming an input and then another leaves what the second leaves. -/
@[simp] theorem setInput_setInput (a b : List PortIn) (s : State) : setInput a (setInput b s) = setInput a s := rfl

@[simp] theorem setInput_self (s : State) : setInput s.input s = s := rfl

end Sys2Proof.Machine
end

