-- ==== Sys2Proof/Laws/Exec.lean ====
section
/-! SUPPORT. Everything a command and a step can do, said once: proofs cite these lemmas and unfold no meaning. -/

namespace Sys2Proof.Machine

/-- What an accepted command does to the state (the `w`, `0` and `1` entries of 10_state.md R27). -/
def effect (i : Instr) (s : State) : State :=
  match i with
  | .nop => s
  | .clr => clearAll s
  | .ldc idx w => writeCoef idx w s
  | .ldd1 d => writeD1 d s
  | .ldd2 d => writeD2 d s
  | .crcv => writeChecksum (crc4 s.params.crcField s.coef) (embedded s.params.crcField s.coef) s
  | .conv => writeReading (readingTemp s.params s.d1 s.d2 s.coef) (readingP s.params s.d1 s.d2 s.coef) s

/-- A guarded command always answers a next state: its writes, or the one write of `ERR_SEQ`. -/
theorem guarded_eq (allowed : Bool) (done s : State) :
    guarded allowed done s = .next (if allowed then done else raiseSeqError s) := by
  cases allowed <;> rfl

/-- Everything a command can do: its effect where it is accepted, else `ERR_SEQ` and nothing more. -/
theorem exec_eq_next (i : Instr) (s : State) :
    exec i s = .next (if accepts i s then effect i s else raiseSeqError s) := by
  cases i <;> first | rfl | exact guarded_eq _ _ s

/-- An accepted command has its effect. -/
theorem exec_of_accepts {i : Instr} {s : State} (h : accepts i s = true) : exec i s = .next (effect i s) := by
  rw [exec_eq_next, if_pos h]

/-- A refused command sets `ERR_SEQ` and nothing more. -/
theorem exec_of_refused {i : Instr} {s : State} (h : accepts i s = false) : exec i s = .next (raiseSeqError s) := by
  rw [exec_eq_next, h]
  rfl

/-- The next state of a command, from the equation. -/
theorem next_of_exec {i : Instr} {s t : State} (h : exec i s = .next t) :
    t = if accepts i s then effect i s else raiseSeqError s := by
  rw [exec_eq_next] at h
  exact (Host.Outcome.next.inj h).symm

/-- A word that spells a command runs it. -/
theorem takeWord_of_ok {cmd : Word} {i : Instr} (h : decode cmd = .ok i) (s : State) : takeWord cmd s = exec i s := by
  simp only [takeWord, h]

/-- A word that spells none sets `ERR_ILL`. -/
theorem takeWord_of_error {cmd : Word} {e : Illegal} (h : decode cmd = .error e) (s : State) :
    takeWord cmd s = .next (raiseIllegal s) := by
  simp only [takeWord, h]

/-- The state a taken word leaves. -/
def afterWord (cmd : Word) (s : State) : State :=
  match decode cmd with
  | .ok i => if accepts i s then effect i s else raiseSeqError s
  | .error _ => raiseIllegal s

/-- A taken word always leaves a next state. -/
theorem takeWord_eq_next (cmd : Word) (s : State) : takeWord cmd s = .next (afterWord cmd s) := by
  unfold takeWord afterWord
  cases decode cmd with
  | ok i => exact exec_eq_next i s
  | error e => rfl

/-- The state one handshake cycle leaves. -/
def afterPort (pin : PortIn) (s : State) : State :=
  if pin.rst then resetBlock s else if pin.cmdValid then afterWord pin.cmd s else s

/-- Everything a handshake cycle can do. -/
theorem portCycle_eq_next (pin : PortIn) (s : State) : portCycle pin s = .next (afterPort pin s) := by
  unfold portCycle afterPort
  split
  · rfl
  · split
    · exact takeWord_eq_next _ s
    · rfl

/-- Whether a command is accepted does not depend on the host's further inputs. -/
@[simp] theorem accepts_setInput (i : Instr) (rest : List PortIn) (s : State) : accepts i (setInput rest s) = accepts i s := by
  cases i <;> rfl

/-- A command's effect neither reads nor changes the host's further inputs. -/
theorem effect_setInput (i : Instr) (rest : List PortIn) (s : State) :
    effect i (setInput rest s) = setInput rest (effect i s) := by
  cases i <;> rfl

/-- A taken word neither reads nor changes the host's further inputs. -/
theorem afterWord_setInput (cmd : Word) (rest : List PortIn) (s : State) :
    afterWord cmd (setInput rest s) = setInput rest (afterWord cmd s) := by
  unfold afterWord
  cases decode cmd with
  | ok i =>
    simp only [accepts_setInput, effect_setInput]
    split <;> rfl
  | error e => rfl

/-- A handshake cycle neither reads nor changes the host's further inputs. -/
theorem afterPort_setInput (pin : PortIn) (rest : List PortIn) (s : State) :
    afterPort pin (setInput rest s) = setInput rest (afterPort pin s) := by
  unfold afterPort
  split
  · rfl
  · split
    · exact afterWord_setInput _ _ _
    · rfl

/-- With nothing driven a step changes nothing. -/
theorem step_of_nil {s : State} (h : s.input = []) : step s = .next s := by
  simp only [step, h]

/-- A step with something driven is the handshake cycle, the input consumed. -/
theorem step_of_cons {s : State} {pin : PortIn} {rest : List PortIn} (h : s.input = pin :: rest) :
    step s = .next (afterPort pin (setInput rest s)) := by
  simp only [step, h, portCycle_eq_next]

/-- A run of any machine takes its first step and goes on. -/
theorem run_succ (M : Host.Core) (k : Nat) {s s' : M.State} (h : M.step s = .next s') : M.run (k + 1) s = M.run k s' := by
  simp only [Host.Core.run, h]

/-- A run whose next input is given takes one step and goes on. -/
theorem run_succ_of_cons {s : State} {pin : PortIn} {rest : List PortIn} (k : Nat) (h : s.input = pin :: rest) :
    Host.Core.run Sys2Proof.core (k + 1) s = Host.Core.run Sys2Proof.core k (afterPort pin (setInput rest s)) :=
  run_succ Sys2Proof.core k (step_of_cons h)

end Sys2Proof.Machine
end

