-- ==== Sys2Proof/Laws/Operands.lean ====
section
/-! SUPPORT. Read after write in the coefficient register file and in its loaded flags. -/

namespace Sys2Proof.Machine

/-- The written register holds the written word. -/
theorem coefAt_setCoef_same (cs : Coeffs) (idx : BitVec 3) (w : Coef) : coefAt (setCoef cs idx w) idx = w :=
  Vector.getElem_set_self _

/-- Every other register is as before. -/
theorem coefAt_setCoef_other (cs : Coeffs) {idx j : BitVec 3} (w : Coef) (h : j ≠ idx) :
    coefAt (setCoef cs idx w) j = coefAt cs j :=
  Vector.getElem_set_ne _ _ (fun e => h (BitVec.eq_of_toNat_eq e.symm))

/-- The loaded flag of the written register is set. -/
theorem loaded_same (flags : BitVec 8) (idx : BitVec 3) : (flags ||| (1#8 <<< idx.toNat)).getLsbD idx.toNat = true := by
  have h := idx.isLt
  simp only [BitVec.getLsbD_or, BitVec.getLsbD_shiftLeft, Nat.lt_irrefl, Nat.sub_self, decide_false, Bool.not_false,
    decide_eq_true h, Bool.and_true, Bool.true_and]
  exact Bool.or_true _

/-- Every other loaded flag is as before. -/
theorem loaded_other (flags : BitVec 8) {idx j : BitVec 3} (h : j ≠ idx) :
    (flags ||| (1#8 <<< idx.toNat)).getLsbD j.toNat = flags.getLsbD j.toNat := by
  have hne : j.toNat ≠ idx.toNat := fun e => h (BitVec.eq_of_toNat_eq e)
  have hoff : (1#8 <<< idx.toNat).getLsbD j.toNat = false := by
    rw [BitVec.getLsbD_shiftLeft]
    by_cases hlt : j.toNat < idx.toNat
    · simp [hlt]
    · have : j.toNat - idx.toNat ≠ 0 := by omega
      simp [BitVec.getLsbD_one, this]
  rw [BitVec.getLsbD_or, hoff, Bool.or_false]

end Sys2Proof.Machine
end

