-- ==== Sys2Proof/Laws/PerInstr.lean ====
section
/-! SUPPORT. A statement about every command as syntax: its word carries the operation code of 30_encoding.md R45. -/

namespace Sys2Proof.Laws.OpField

/-- `OP` of each command (R45). -/
def opcode : Instr → BitVec 4
  | .nop => 0x0
  | .clr => 0x1
  | .ldc _ _ => 0x2
  | .ldd1 _ => 0x3
  | .ldd2 _ => 0x4
  | .crcv => 0x5
  | .conv => 0x6

/-- The word of a command has the command's operation code in bits 31:28 (R43). -/
def Statement (i : Instr) : Prop := fieldOp (encode i) = opcode i

theorem nop : Statement .nop := rfl

theorem clr : Statement .clr := rfl

theorem ldc (idx : BitVec 3) (w : Coef) : Statement (.ldc idx w) := by
  unfold Statement fieldOp encode opcode
  rw [BitVec.extractLsb'_or, BitVec.extractLsb'_or]
  have hidx : (idx.setWidth 32 <<< 24).extractLsb' 28 4 = 0#4 := by
    ext k hk
    simp [BitVec.getLsbD_of_ge idx (28 + k - 24) (by omega)]
  have hw : (w.setWidth 32).extractLsb' 28 4 = 0#4 := by
    ext k hk
    simp [BitVec.getLsbD_of_ge w (28 + k) (by omega)]
  rw [hidx, hw]
  rfl

/-- Bits 31:28 of a word below 2^24 are 0. -/
theorem code_op (d : RawCode) : (d.setWidth 32).extractLsb' 28 4 = 0#4 := by
  ext k hk
  simp [BitVec.getLsbD_of_ge d (28 + k) (by omega)]

theorem ldd1 (d : RawCode) : Statement (.ldd1 d) := by
  unfold Statement fieldOp encode opcode
  rw [BitVec.extractLsb'_or, code_op]
  rfl

theorem ldd2 (d : RawCode) : Statement (.ldd2 d) := by
  unfold Statement fieldOp encode opcode
  rw [BitVec.extractLsb'_or, code_op]
  rfl

theorem crcv : Statement .crcv := rfl

theorem conv : Statement .conv := rfl

end Sys2Proof.Laws.OpField
end

