-- ==== Sys2Proof/Tests/Slice0.lean ====
section
/-! SUPPORT. Tests with expected results from spec/95_test_vectors.md, the well-formedness smoke tests, and a witness for the
hypotheses of every statement that has some. -/

-- The file's many small theorems are elaborated one after another: in parallel they want more threads than a limited memory gives.
set_option Elab.async false

namespace Sys2Proof.Tests

open Sys2Proof Sys2Proof.Machine

/-! ### States the tests start from -/

/-- The set `A` of section 4.1 with a chosen word 7. -/
def setA (w7 : Coef) : Coeffs := #v[0x3132, 0x3334, 0x3536, 0x3738, 0x3940, 0x4142, 0x4344, w7]

/-- The set `Cc` of section 5.1. -/
def setCc : Coeffs := #v[0x0155, 0xB5D2, 0xA75D, 0x7437, 0x7311, 0x7FE9, 0x7183, 0x0007]

/-- `STATUS` = `0xFF00`: all eight words loaded. -/
def loadedState (cs : Coeffs) : Machine.State := { State.reset with coef := cs, loaded := 0xFF }

/-- `STATUS` = `0xFF03`: `Cc` validated (K14). -/
def validState : Machine.State :=
  { loadedState setCc with crcCalc := 7, crcEmb := 7, crcDone := true, valid := true }

/-- `STATUS` = `0xFF1B`: validated, both raw codes loaded. -/
def readyState (d1 d2 : RawCode) : Machine.State := { validState with d1 := d1, d2 := d2, d1v := true, d2v := true }

/-- One field of the next state. -/
def after {α : Type} (f : Machine.State → α) (r : Result) : Option α :=
  match r with
  | .next s => some (f s)
  | _ => none

/-! ### Well-formedness: for each check a term it refuses -/

theorem test_wf_ldc_index : (AsmLine.ldc 8 0).wf = false := by decide
theorem test_wf_ldc_word : (AsmLine.ldc 0 0x10000).wf = false := by decide
theorem test_wf_ldd1 : (AsmLine.ldd1 0x1000000).wf = false := by decide
theorem test_wf_ldd2 : (AsmLine.ldd2 0x1000000).wf = false := by decide
theorem test_wf_loadc_count : (AsmLine.loadc [0, 0, 0, 0, 0, 0, 0]).wf = false := by decide
theorem test_wf_init_word : (AsmLine.init [0, 0, 0, 0, 0, 0, 0, 0x10000]).wf = false := by decide
theorem test_wf_sample : (AsmLine.sample 0 0x1000000).wf = false := by decide
theorem test_wf_accepts : (AsmLine.ldc 7 0xFFFF).wf = true := by decide

/-! ### Decoding: words written out from the patterns of 30_encoding.md R45 -/

theorem test_decode_nop : decode 0b0000_0000_0000_0000_0000_0000_0000_0000#32 = .ok .nop := by decide
theorem test_decode_clr : decode 0b0001_0000_0000_0000_0000_0000_0000_0000#32 = .ok .clr := by decide
theorem test_decode_ldc : decode 0b0010_0101_0000_0000_0111_1111_1110_1001#32 = .ok (.ldc 5 0x7FE9) := by decide
theorem test_decode_ldd1 : decode 0b0011_0000_0100_0001_1100_1001_1111_1110#32 = .ok (.ldd1 4311550) := by decide
theorem test_decode_ldd2 : decode 0b0100_0000_0111_1111_1111_1010_1110_0100#32 = .ok (.ldd2 8387300) := by decide
theorem test_decode_crcv : decode 0b0101_0000_0000_0000_0000_0000_0000_0000#32 = .ok .crcv := by decide
theorem test_decode_conv : decode 0b0110_0000_0000_0000_0000_0000_0000_0000#32 = .ok .conv := by decide

theorem test_table_word : decodeTableWord 32 0x2700FFFF = some (.ldc 7 0xFFFF) := by decide
theorem test_table_word_illegal : decodeTableWord 32 0x28000000 = none := by decide

/-- R50's syntax with a comment, and the word of R55's example. -/
theorem test_assemble : (Asm.parseLine ['L', 'D', 'C', ' ', '5', ',', ' ', '0', 'x', '7', 'F', 'E', '9', ' ', '#', 'x']).map
    (·.map Asm.assemble) = some [some [0x25007FE9]] := by decide +kernel

/-! ### One step of each command -/

/-- L1. -/
theorem test_nop : step (State.reset.withFetchWord 32 0x00000000) = .next State.reset := by rfl
/-- L10: everything 0 except `ERR_SEQ`. -/
theorem test_clr : after status (execClr { readyState 1 2 with convDone := true, errSeq := true, temp := 2015 }) = some 0x0020 := by
  decide
theorem test_clr_temp : after State.temp (execClr { readyState 1 2 with temp := 2015 }) = some 0 := by decide
/-- L2. -/
theorem test_ldc : after (fun s => (coefAt s.coef 5, status s)) (step (State.reset.withFetchWord 32 0x25007FE9)) =
    some (0x7FE9, 0x2000) := by decide
/-- L5: refused on a validated set. -/
theorem test_ldc_refused : after (fun s => (coefAt s.coef 1, status s)) (execLdc 1 0 validState) = some (0xB5D2, 0xFF23) := by
  decide
/-- L6. -/
theorem test_ldd1 : after (fun s => (s.d1, status s)) (step (State.reset.withFetchWord 32 0x3041C9FE)) =
    some (0x41C9FE, 0x0008) := by decide
/-- L8: the reading goes stale, `TEMP` stays. -/
theorem test_ldd1_stale : after (fun s => (status s, s.temp))
    (execLdd1 0x3D0900 { readyState 1 2 with convDone := true, temp := 2015 }) = some (0xFF1B, 2015) := by decide
/-- L7. -/
theorem test_ldd2 : after (fun s => (s.d2, status s)) (execLdd2 0x7FFAE4 { State.reset with d1 := 1, d1v := true }) =
    some (0x7FFAE4, 0x0018) := by decide
/-- K2. -/
theorem test_crcv : after (fun s => (s.crcCalc, s.crcEmb, status s)) (execCrcv (loadedState (setA 0x450B))) =
    some (0xB, 0x0B, 0xFF03) := by decide +kernel
/-- K19: word 7 missing. -/
theorem test_crcv_refused : after status (execCrcv { State.reset with loaded := 0x7F }) = some 0x7F20 := by decide
/-- V7: negative temperature, negative pressure. -/
theorem test_conv : after (fun s => (s.temp, s.p, status s)) (execConv (readyState 3500000 7400000)) =
    some (0xFFFFF933, 0xFFFFBFC6, 0xFF1F) := by decide +kernel
/-- X3: `D2` missing. -/
theorem test_conv_refused : after status (execConv { validState with d1v := true }) = some 0xFF2B := by decide
/-- W12, P5 step 3. -/
theorem test_illegal : after status (step (State.reset.withFetchWord 32 0x70000000)) = some 0x0040 := by decide
/-- L12. -/
theorem test_reset : after status (portCycle { present 0x10000000 with rst := true }
    { State.reset with errSeq := true, errIll := true }) = some 0x0000 := by decide

/-! ### The two engines on the spec's vectors -/

/-- The bit steps of byte no. 1 of section 4.1. -/
theorem test_shift_steps : (List.range 9).map (fun n => shiftBits n 0x3132) =
    [0x3132, 0x6264, 0xC4C8, 0xB990, 0x4320, 0x8640, 0x3C80, 0x7900, 0xF200] := by decide +kernel
/-- K3 and P6: the two masks disagree. -/
theorem test_masks : (crc4 .nibble (setA 0x45F4), embedded .nibble (setA 0x45F4), crc4 .byte (setA 0x45F4),
    embedded .byte (setA 0x45F4)) = (0x4, 0x04, 0xB, 0xF4) := by decide +kernel
/-- K8: all ones. -/
theorem test_all_ones : (crc4 .nibble (Vector.replicate 8 0xFFFF), crc4 .byte (Vector.replicate 8 0xFFFF)) = (0xF, 0x0) := by
  decide +kernel
/-- V3: truncation toward zero keeps `TEMP1` at 2000. -/
theorem test_comp_V3 : comp false 4311550 8382719 setCc =
    { dT := -1, n1 := -29059, temp1 := 2000, t2 := 0, off2 := 0, sens2 := 0, off1 := 11231558760, sens1 := 6100877080,
      temp := 2000, off := 11231558760, sens := 6100877080, num := 26304236574274000, q1 := 12542837416,
      diff := 1311278656, p := 40017 } := by decide +kernel
/-- V6: every correction non-zero. -/
theorem test_comp_V6 : comp false 4000000 8000000 setCc =
    { dT := -382720, n1 := -11121460480, temp1 := 675, t2 := 51, off2 := 658359, sens2 := 1536171, off1 := 10879253960,
      sens1 := 6011921822, temp := 624, off := 10878595601, sens := 6010385651, num := 24041542604000000,
      q1 := 11463900854, diff := 585305253, p := 17862 } := by decide +kernel
/-- E1: the corner that separates 64-bit from 32-bit squares. -/
theorem test_comp_E1 : comp false 16777215 0 (Vector.replicate 8 65535) =
    { dT := -16776960, n1 := -1099478073600, temp1 := -129068, t2 := 98301, off2 := 6442057734, sens2 := 15031468046,
      off1 := -17179082760, sens1 := 131070, temp := -227369, off := -23621140494, sens := -15031336976,
      num := -252183972183801840, q1 := -120250688640, diff := -96629548146, p := -2948899 } := by decide +kernel
/-- E1 in the named widths. -/
theorem test_fixed_E1 : (fixTemp 0 (Vector.replicate 8 65535), (fixP 16777215 0 (Vector.replicate 8 65535)).toInt) =
    (0xFFFC87D7, -2948899) := by decide +kernel

/-- 70_reset_and_hazards.md R119. -/
theorem test_settling_delay : [256, 512, 1024, 2048, 4096, 8192].map HostSide.settlingDelay =
    [some 1, some 3, some 4, some 6, some 10, none] := by decide

/-! ### Witnesses: states and operands that meet the hypotheses of the statements -/

theorem witness_ResetStateIsAllZero : (present 0).rst = false := rfl
theorem witness_ResetCycleLeavesResetState : ∃ (s : Machine.State) (pin : PortIn), s.input = [pin] ∧ pin.rst = true :=
  ⟨{ State.reset with input := [{ present 0 with rst := true }] }, _, rfl, rfl⟩
theorem witness_StepRunsDecodedCommand : let s := State.reset.withFetchWord 32 0x2700FFFF
    s.input = [present 0x2700FFFF] ∧ (present 0x2700FFFF).rst = false ∧ (present 0x2700FFFF).cmdValid = true ∧
      decode (present 0x2700FFFF).cmd = .ok (.ldc 7 0xFFFF) := by decide
theorem witness_IllegalWordSetsOnlyErrIll : let s := State.reset.withFetchWord 32 0x6000FFFF
    s.input = [present 0x6000FFFF] ∧ (present 0x6000FFFF).rst = false ∧ (present 0x6000FFFF).cmdValid = true ∧
      decode (present 0x6000FFFF).cmd = .error .reservedBits := by decide
theorem witness_NoCommandNoChange : State.reset.input = [] ∧ ∃ (s : Machine.State) (pin : PortIn),
    s.input = [pin] ∧ pin.rst = false ∧ pin.cmdValid = false :=
  ⟨rfl, { State.reset with input := [{ present 0 with cmdValid := false }] }, _, rfl, rfl, rfl⟩
theorem witness_WordSpellsCommandByItsRow : decode 0x2700FFFF = .ok (.ldc 7 0xFFFF) ∧ decode 0x30FFFFFF = .ok (.ldd1 0xFFFFFF) ∧
    decode 0x40000000 = .ok (.ldd2 0) := by decide
theorem witness_IllegalWordsAreTheListedOnes : decode 0x6FFFFFFF = .error .reservedBits ∧ decode 0x70000000 = .error .opcode ∧
    decode 0x28000000 = .error .indexBit27 ∧ decode 0x20010000 = .error .wordBits23to16 ∧
    decode 0x31000000 = .error .codeBits27to24 ∧ decode 0x4F000000 = .error .codeBits27to24 := by decide
theorem witness_DecodeThenEncode : decode 0x30FFFFFF = .ok (.ldd1 0xFFFFFF) := by decide
theorem witness_AssemblerEncodesInRangeOperandsOnly : Asm.assemble (.ldc 7 0xFFFF) = some [0x2700FFFF] ∧
    Asm.assemble (.ldc 8 0) = none ∧ Asm.assemble (.ldc 0 0x10000) = none ∧ Asm.assemble (.ldd1 0xFFFFFF) = some [0x30FFFFFF] ∧
    Asm.assemble (.ldd2 0x1000000) = none := by decide
theorem witness_NopLeavesTheState : (0x00000001#32).extractLsb' 28 4 = 0 ∧ (0x00000001#32) ≠ 0 := by decide
theorem witness_CrcvValidatesLoadedSet : ({ State.reset with loaded := 0x7F } : Machine.State).loaded ≠ 0xFF ∧
    (loadedState setCc).loaded = 0xFF := by decide
theorem witness_ConvWritesReading : State.reset.valid = false ∧ ({ validState with d2v := true } : Machine.State).d1v = false ∧
    ({ validState with d1v := true } : Machine.State).d2v = false ∧ let s := readyState 3500000 7400000
    s.params.vltEn = false ∧ s.valid = true ∧ s.d1v = true ∧ s.d2v = true := by decide
theorem witness_ConvCompletesForEitherVlt : let s := { readyState 4311550 8387300 with params := ⟨.nibble, true⟩ }
    s.valid = true ∧ s.d1v = true ∧ s.d2v = true ∧ compFits (comp s.params.vltEn s.d1 s.d2 s.coef) = true := by decide +kernel
theorem witness_StatusBitsAreTheFlags : (status { validState with loaded := 0x80 }).getLsbD (8 + 7) = true := by decide
theorem witness_RefusedExactlyByPrecondition : accepts (.ldc 0 0) validState = false ∧ accepts .crcv State.reset = false ∧
    accepts .conv validState = false ∧ accepts (.ldc 0 0) State.reset = true ∧ accepts .crcv validState = true ∧
    accepts .conv (readyState 0 0) = true := by decide
theorem witness_ErrorFlagsAreSticky : State.reset.input = [] ∧ step State.reset = .next State.reset ∧
    (∃ t, step (State.reset.withFetchWord 32 0x60000000) = .next t ∧ t.errSeq = true) ∧
    (∃ t, step (State.reset.withFetchWord 32 0x70000000) = .next t ∧ t.errIll = true) ∧
    ∃ t, step { State.reset with errSeq := true, input := [{ present 0 with rst := true }] } = .next t ∧ t.errSeq = false :=
  ⟨rfl, rfl, ⟨_, rfl, rfl⟩, ⟨_, rfl, rfl⟩, ⟨_, rfl, rfl⟩⟩
theorem witness_ErrorFlagsSteerNothing : exec .crcv State.reset = .next { State.reset with errSeq := true } := rfl
theorem witness_RegistersWrittenOnlyByTheirCommands : (∃ t, exec (.ldc 7 1) State.reset = .next t) ∧
    accepts (.ldc 7 1) State.reset = true ∧ accepts (.ldc 7 1) validState = false ∧ (0 : BitVec 3) ≠ 7 :=
  ⟨⟨_, rfl⟩, rfl, rfl, by decide⟩
theorem witness_RepeatedCommandChangesNothing : ∃ t, exec .conv (readyState 1 2) = .next t :=
  ⟨_, exec_eq_next _ _⟩
theorem witness_ParametersNeverChange : ∃ t, step { State.reset with params := ⟨.byte, true⟩, input := [present 0x10000000] } =
    .next t := ⟨_, rfl⟩

/-- A validated set with a reading, every guard of the invariants raised: the all-zero set (K7, E3's `TEMP` and `P`). -/
def readingState : Machine.State :=
  { loadedState (Vector.replicate 8 0) with
    crcDone := true, valid := true, d1 := 0xFFFFFF, d2 := 0xFFFFFF, d1v := true, d2v := true, convDone := true, temp := 2000,
    input := [present 0x21000001] }

theorem witness_StepKeepsInvariants : BlockInv readingState ∧ ∃ t, step readingState = .next t := by
  refine ⟨?_, _, step_of_cons rfl⟩
  constructor <;> decide +kernel
theorem witness_ClrClearsAllButErrorFlags : BlockInv readingState ∧ readingState.valid = true ∧
    ∃ t, exec .clr readingState = .next t ∧ t.valid = false :=
  ⟨witness_StepKeepsInvariants.1, rfl, _, exec_eq_next _ _, rfl⟩
theorem witness_LdcLoadsUnlessValidated : validState.valid = true ∧ (loadedState setCc).valid = false ∧ (0 : BitVec 3) ≠ 7 ∧
    BlockInv (loadedState setCc) := by
  refine ⟨rfl, rfl, by decide, ?_⟩
  constructor <;> decide
/-- K15: one bit of `C[3]` flipped. -/
theorem witness_ChecksumMismatchIsNoError : let s := loadedState (setCoef setCc 3 0x7537)
    s.loaded = 0xFF ∧ (crc4 s.params.crcField s.coef).setWidth 8 ≠ embedded s.params.crcField s.coef := by decide +kernel
theorem witness_ChecksumIsLinear : 108 + 15 < 124 := by decide
theorem witness_ValidatedSetIsImmutable : readingState.valid = true ∧ ∃ t, step readingState = .next t :=
  ⟨rfl, _, step_of_cons rfl⟩

/-- The eight zero words, the check, and one input more. -/
def validatingPins : List PortIn :=
  [present 0x20000000, present 0x21000000, present 0x22000000, present 0x23000000, present 0x24000000, present 0x25000000,
    present 0x26000000, present 0x27000000, present 0x50000000, present 0x21000001]

/-- A computed run that answers a next state with a property. -/
theorem next_with {r : Result} {f : Machine.State → Bool} (h : after f r = some true) : ∃ s, r = .next s ∧ f s = true := by
  cases r with
  | next s => exact ⟨s, rfl, Option.some.inj h⟩
  | fault e => cases h
  | refused e => cases h

theorem witness_ReachableStatesMeetInvariants : ∃ s t : Machine.State,
    Host.Core.run Sys2Proof.core 9 ({ State.reset with params := ⟨.byte, false⟩, input := validatingPins } : Machine.State) =
      .next s ∧ s.valid = true ∧ s.input = [present 0x21000001] ∧ (present 0x21000001).rst = false ∧
      ¬((present 0x21000001).cmdValid = true ∧ decode (present 0x21000001).cmd = .ok .clr) ∧ step s = .next t := by
  obtain ⟨s, hs, hp⟩ := next_with (f := fun s => s.valid && s.input == [present 0x21000001])
    (r := Host.Core.run Sys2Proof.core 9 ({ State.reset with params := ⟨.byte, false⟩, input := validatingPins } : Machine.State))
    (by decide +kernel)
  obtain ⟨hv, hin⟩ := Bool.and_eq_true_iff.mp hp
  exact ⟨s, _, hs, hv, beq_iff_eq.mp hin, rfl, by decide, step_of_cons (beq_iff_eq.mp hin)⟩
theorem witness_CleanRunRefusedNothing : let s := State.reset.withFetchWord 32 0x20000001
    (∃ t : Machine.State, Host.Core.run Sys2Proof.core 1 s = .next t ∧ goneWrong t = false) ∧
    (∀ pin ∈ s.input.take 1, pin.rst = false) ∧ Host.Core.run Sys2Proof.core 0 s = .next s ∧
    s.input = [present 0x20000001] ∧ (present 0x20000001).cmdValid = true :=
  ⟨⟨_, rfl, rfl⟩, by decide, rfl, rfl, rfl⟩
theorem witness_ChecksumFieldMasks : (crc4 .byte (setA 0x450B)).setWidth 8 = embedded .byte (setA 0x450B) ∧
    (setA 0x450B)[7].extractLsb' 4 4 = 0 := by decide +kernel
/-- The two clauses meet between bits 3 and 4 of word 7, and 7 and 8 with the byte mask. -/
theorem witness_SingleBitErrorsDetected : inField .nibble 7 3 = true ∧ inField .nibble 7 4 = false ∧ inField .byte 7 7 = true ∧
    inField .byte 7 8 = false ∧ inField .nibble 6 0 = false ∧ (15 < 16) := by decide
theorem witness_AllZeroSetPasses : (loadedState (Vector.replicate 8 0)).coef = Vector.replicate 8 0 ∧
    (loadedState (Vector.replicate 8 0)).loaded = 0xFF := by decide
theorem witness_DivisionRoundsTowardZero : (0 : Int) < 8388608 ∧ ¬((0 : Int) ≤ -1) := by decide
/-- V5 and V4, the last `dT` on either side of the branch. -/
theorem witness_LowBranchCondition : (comp false 4311550 8382431 setCc).temp1 < 2000 ∧
    2000 ≤ (comp false 4311550 8382432 setCc).temp1 := by decide +kernel
theorem witness_IntermediatesWithinBounds : (comp false 16777215 0 (Vector.replicate 8 65535)).temp1 < 2000 := by decide +kernel
theorem witness_PressureMonotoneInD1 : (4311549 : RawCode).toNat ≤ (4311550 : RawCode).toNat ∧
    0 ≤ (comp false 4311549 8387300 setCc).sens ∧ (comp false 0 0 (Vector.replicate 8 65535)).sens ≤ 0 := by decide +kernel
theorem witness_ReadingDependsOnlyOnItsInputs : let s := readyState 1 2
    let s' := { s with coef := setCoef s.coef 0 0xFFFF, errSeq := true }
    s.valid = true ∧ s.d1v = true ∧ s.d2v = true ∧ s'.valid = true ∧ s'.d1v = true ∧ s'.d2v = true ∧ s.params = s'.params ∧
      s.d1 = s'.d1 ∧ s.d2 = s'.d2 ∧ (∀ idx : BitVec 3, idx ≠ 0 → idx ≠ 7 → coefAt s.coef idx = coefAt s'.coef idx) ∧
      (∃ t, exec .conv s = .next t) ∧ ∃ t', exec .conv s' = .next t' :=
  ⟨rfl, rfl, rfl, rfl, rfl, rfl, rfl, rfl, rfl, by decide, ⟨_, exec_eq_next _ _⟩,
    ⟨_, exec_eq_next _ _⟩⟩

/-- The block with a command in progress. -/
def busyTimed (cmd : Word) (left elapsed : Nat) : Timed := { arch := State.reset, busy := some ⟨cmd, left, elapsed⟩, taken := 1 }

theorem witness_BusyBlockIgnoresPresentedWord : (busyTimed 0 1 0).busy = some ⟨0, 1, 0⟩ ∧ (present 0x10000000).rst = false :=
  ⟨rfl, rfl⟩
theorem witness_CommandCompletesAfterItsLatency : let t : Timed := { arch := State.reset, busy := none, taken := 0 }
    let pin := present 0x50000000
    let idle := List.replicate (latency pin.cmd t.arch) (present 0)
    t.busy = none ∧ pin.rst = false ∧ pin.cmdValid = true ∧ ([] : List PortIn).length < latency pin.cmd t.arch ∧
      (∀ q ∈ idle, q.rst = false) ∧ idle.length = latency pin.cmd t.arch := by
  refine ⟨rfl, rfl, rfl, Nat.succ_pos _, fun q hq => ?_, List.length_replicate⟩
  rw [List.eq_of_mem_replicate hq]
  rfl
/-- A cycle that goes on and a cycle that completes. -/
theorem witness_OutputsShowOldOrNewState : ({ arch := State.reset, busy := none, taken := 0 } : Timed).busy = none ∧
    (busyTimed 0x3041C9FE 2 0).busy = some ⟨0x3041C9FE, 2, 0⟩ ∧ (busyTimed 0x3041C9FE 1 1).busy = some ⟨0x3041C9FE, 1, 1⟩ ∧
    (∃ a, takeWord 0x3041C9FE (busyTimed 0x3041C9FE 2 0).arch = .next a) ∧ (present 0).rst = false :=
  ⟨rfl, rfl, rfl, ⟨_, takeWord_eq_next _ _⟩, rfl⟩
theorem witness_HandshakeRefinesStep : ({ arch := State.reset, busy := none, taken := 0 } : Timed).busy = none := rfl

end Sys2Proof.Tests
end

section
/-! Division rounding toward zero (00_scope.md R9) as the arithmetic shift of an adjusted numerator. -/

namespace Sys2Proof.Machine

/-- The ceiling of `n / d` is the floor of the numerator raised by `d - 1`. -/
theorem neg_neg_ediv_eq_add_pred_ediv (n : Int) {d : Int} (hd : 0 < d) : -(-n / d) = (n + (d - 1)) / d := by
  have hdiv := Int.mul_ediv_add_emod (-n) d
  have hnonneg := Int.emod_nonneg (-n) hd.ne'
  have hlt := Int.emod_lt_of_pos (-n) hd
  refine ((Int.ediv_eq_iff_of_pos hd).mpr ⟨?_, ?_⟩).symm
  · linarith
  · linarith

/-- Rounding toward zero is the floor of the numerator, or of the adjusted numerator where that is negative. -/
theorem tdiv_eq_ediv_adjusted (n : Int) {d : Int} (hd : 0 < d) :
    tdiv n d = if 0 ≤ n then n / d else (n + (d - 1)) / d := by
  rw [tdiv, neg_neg_ediv_eq_add_pred_ediv n hd]

/-- 00_scope.md R9 at a power of two: the floors are arithmetic shifts. -/
theorem tdiv_two_pow (n : Int) (k : Nat) :
    tdiv n (2 ^ k) = if 0 ≤ n then n >>> k else (n + (2 ^ k - 1)) >>> k := by
  rw [tdiv_eq_ediv_adjusted n (pow_pos two_pos k), Int.shiftRight_eq_div_pow, Int.shiftRight_eq_div_pow, Nat.cast_pow,
    Nat.cast_ofNat]

/-- Settles O42, by writing the negated quotient of a negative numerator as the floor of the adjusted one. -/
theorem divisionRoundsTowardZero : Obligations.DivisionRoundsTowardZero :=
  ⟨fun n d _ => tdiv_eq_int_tdiv n d, tdiv_two_pow, by decide, by decide⟩

end Sys2Proof.Machine
end

section
/-! What a command, a taken word and a step leave in each register: the write matrix of 10_state.md R27 by columns, and the two
sticky error flags of R21. -/

namespace Sys2Proof.Machine

/-- Everything a command can do, as two cases: accepted, it has its effect; refused, it sets `ERR_SEQ`. -/
theorem exec_cases {i : Instr} {s t : State} (h : exec i s = .next t) :
    (accepts i s = true ∧ t = effect i s) ∨ (accepts i s = false ∧ t = raiseSeqError s) := by
  cases ha : accepts i s with
  | true => exact .inl ⟨rfl, by simpa [ha] using next_of_exec h⟩
  | false => exact .inr ⟨rfl, by simpa [ha] using next_of_exec h⟩

/-- Everything a taken word can do, as three cases: an accepted command, a refused one, no command. -/
theorem afterWord_cases (cmd : Word) (s : State) :
    (∃ i, decode cmd = .ok i ∧ accepts i s = true ∧ afterWord cmd s = effect i s) ∨
      (∃ i, decode cmd = .ok i ∧ accepts i s = false ∧ afterWord cmd s = raiseSeqError s) ∨
      ∃ e, decode cmd = .error e ∧ afterWord cmd s = raiseIllegal s := by
  cases hd : decode cmd with
  | error e => exact .inr (.inr ⟨e, rfl, by simp only [afterWord, hd]⟩)
  | ok i =>
    cases hacc : accepts i s with
    | true => exact .inl ⟨i, rfl, hacc, by simp [afterWord, hd, hacc]⟩
    | false => exact .inr (.inl ⟨i, rfl, hacc, by simp [afterWord, hd, hacc]⟩)

/-- A cycle with `rst` = 1 resets. -/
theorem afterPort_of_rst {pin : PortIn} (hrst : pin.rst = true) (s : State) : afterPort pin s = resetBlock s := by
  rw [afterPort, if_pos hrst]

/-- A cycle that presents a word takes it. -/
theorem afterPort_of_word {pin : PortIn} (hrst : pin.rst = false) (hv : pin.cmdValid = true) (s : State) :
    afterPort pin s = afterWord pin.cmd s := by
  rw [afterPort, if_neg (Bool.eq_false_iff.mp hrst), if_pos hv]

/-- A cycle that presents none changes nothing. -/
theorem afterPort_of_idle {pin : PortIn} (hrst : pin.rst = false) (hv : pin.cmdValid = false) (s : State) :
    afterPort pin s = s := by
  rw [afterPort, if_neg (Bool.eq_false_iff.mp hrst), if_neg (Bool.eq_false_iff.mp hv)]

/-- The next state of a step with something driven, from the equation. -/
theorem next_of_step_cons {s t : State} {pin : PortIn} {rest : List PortIn} (hin : s.input = pin :: rest)
    (h : step s = .next t) : t = afterPort pin (setInput rest s) :=
  (Host.Outcome.next.inj ((step_of_cons hin).symm.trans h)).symm

/-- Everything a step can do, as two cases: nothing is driven, or one handshake cycle is consumed. -/
theorem step_cases {s t : State} (h : step s = .next t) :
    (s.input = [] ∧ t = s) ∨ ∃ pin rest, s.input = pin :: rest ∧ t = afterPort pin (setInput rest s) := by
  cases hin : s.input with
  | nil => exact .inl ⟨rfl, (Host.Outcome.next.inj ((step_of_nil hin).symm.trans h)).symm⟩
  | cons pin rest => exact .inr ⟨pin, rest, rfl, next_of_step_cons hin h⟩

/-! ### No effect touches the parameters, the inputs or an error flag -/

@[simp] theorem effect_params (i : Instr) (s : State) : (effect i s).params = s.params := by cases i <;> rfl
@[simp] theorem effect_input (i : Instr) (s : State) : (effect i s).input = s.input := by cases i <;> rfl
@[simp] theorem effect_errSeq (i : Instr) (s : State) : (effect i s).errSeq = s.errSeq := by cases i <;> rfl
@[simp] theorem effect_errIll (i : Instr) (s : State) : (effect i s).errIll = s.errIll := by cases i <;> rfl

/-! ### The columns of the write matrix -/

/-- `C` and `LOADED` are written by `CLR` and `LDC` only. -/
theorem effect_coef_loaded {i : Instr} (s : State) (hclr : i ≠ .clr) (hldc : ∀ idx w, i ≠ .ldc idx w) :
    (effect i s).coef = s.coef ∧ (effect i s).loaded = s.loaded := by
  cases i with
  | clr => exact absurd rfl hclr
  | ldc idx w => exact absurd rfl (hldc idx w)
  | _ => exact ⟨rfl, rfl⟩

/-- `LDC` writes no other coefficient and no other loaded flag than its own. -/
theorem effect_ldc_other (w : Coef) (s : State) {idx j : BitVec 3} (h : j ≠ idx) :
    coefAt (effect (.ldc idx w) s).coef j = coefAt s.coef j ∧
      (effect (.ldc idx w) s).loaded.getLsbD j.toNat = s.loaded.getLsbD j.toNat :=
  ⟨coefAt_setCoef_other s.coef w h, loaded_other s.loaded h⟩

/-- `D1` and `D1V` are written by `CLR` and `LDD1` only. -/
theorem effect_d1_d1v {i : Instr} (s : State) (hclr : i ≠ .clr) (hldd1 : ∀ d, i ≠ .ldd1 d) :
    (effect i s).d1 = s.d1 ∧ (effect i s).d1v = s.d1v := by
  cases i with
  | clr => exact absurd rfl hclr
  | ldd1 d => exact absurd rfl (hldd1 d)
  | _ => exact ⟨rfl, rfl⟩

/-- `D2` and `D2V` are written by `CLR` and `LDD2` only. -/
theorem effect_d2_d2v {i : Instr} (s : State) (hclr : i ≠ .clr) (hldd2 : ∀ d, i ≠ .ldd2 d) :
    (effect i s).d2 = s.d2 ∧ (effect i s).d2v = s.d2v := by
  cases i with
  | clr => exact absurd rfl hclr
  | ldd2 d => exact absurd rfl (hldd2 d)
  | _ => exact ⟨rfl, rfl⟩

/-- `CRC_CALC`, `CRC_EMB` and `VALID` are written by `CLR` and `CRCV` only. -/
theorem effect_checksum_valid {i : Instr} (s : State) (hclr : i ≠ .clr) (hcrcv : i ≠ .crcv) :
    (effect i s).crcCalc = s.crcCalc ∧ (effect i s).crcEmb = s.crcEmb ∧ (effect i s).valid = s.valid := by
  cases i with
  | clr => exact absurd rfl hclr
  | crcv => exact absurd rfl hcrcv
  | _ => exact ⟨rfl, rfl, rfl⟩

/-- `CRC_DONE` is written by `CLR`, `CRCV` and `LDC` only. -/
theorem effect_crcDone {i : Instr} (s : State) (hclr : i ≠ .clr) (hcrcv : i ≠ .crcv) (hldc : ∀ idx w, i ≠ .ldc idx w) :
    (effect i s).crcDone = s.crcDone := by
  cases i with
  | clr => exact absurd rfl hclr
  | crcv => exact absurd rfl hcrcv
  | ldc idx w => exact absurd rfl (hldc idx w)
  | _ => rfl

/-- `TEMP` and `P` are written by `CLR` and `CONV` only. -/
theorem effect_temp_p {i : Instr} (s : State) (hclr : i ≠ .clr) (hconv : i ≠ .conv) :
    (effect i s).temp = s.temp ∧ (effect i s).p = s.p := by
  cases i with
  | clr => exact absurd rfl hclr
  | conv => exact absurd rfl hconv
  | _ => exact ⟨rfl, rfl⟩

/-- `CONV_DONE` is written by `CLR`, `CONV`, `LDD1` and `LDD2` only. -/
theorem effect_convDone {i : Instr} (s : State) (hclr : i ≠ .clr) (hconv : i ≠ .conv) (hldd1 : ∀ d, i ≠ .ldd1 d)
    (hldd2 : ∀ d, i ≠ .ldd2 d) : (effect i s).convDone = s.convDone := by
  cases i with
  | clr => exact absurd rfl hclr
  | conv => exact absurd rfl hconv
  | ldd1 d => exact absurd rfl (hldd1 d)
  | ldd2 d => exact absurd rfl (hldd2 d)
  | _ => rfl

/-- Settles O27: an accepted command by the columns above, a refused one since it writes `ERR_SEQ` alone. -/
theorem registersWrittenOnlyByTheirCommands : Obligations.RegistersWrittenOnlyByTheirCommands := by
  intro i s t h
  obtain ⟨hacc, rfl⟩ | ⟨href, rfl⟩ := exec_cases h
  · refine ⟨effect_params i s, effect_input i s, effect_errIll i s, fun _ => effect_errSeq i s,
      fun href => absurd hacc (Bool.eq_false_iff.mp href), effect_coef_loaded s, ?_, effect_d1_d1v s,
      effect_d2_d2v s, effect_checksum_valid s, effect_crcDone s, effect_temp_p s, effect_convDone s⟩
    rintro idx w rfl j hj
    exact effect_ldc_other w s hj
  · exact ⟨rfl, rfl, rfl, fun hacc => absurd hacc (Bool.eq_false_iff.mp href), fun _ => rfl,
      fun _ _ => ⟨rfl, rfl⟩, fun _ _ _ _ _ => ⟨rfl, rfl⟩, fun _ _ => ⟨rfl, rfl⟩, fun _ _ => ⟨rfl, rfl⟩,
      fun _ _ => ⟨rfl, rfl, rfl⟩, fun _ _ _ => rfl, fun _ _ => ⟨rfl, rfl⟩, fun _ _ _ _ => rfl⟩

/-! ### The sticky error flags -/

/-- What a taken word leaves in the error flags, in a cycle that presents it. -/
theorem afterWord_errors {pin : PortIn} (hv : pin.cmdValid = true) (s : State) :
    (afterWord pin.cmd s).errSeq = (s.errSeq || seqErrorOf pin s) ∧
      (afterWord pin.cmd s).errIll = (s.errIll || illegalOf pin) := by
  obtain ⟨i, hd, hacc, hw⟩ | ⟨i, hd, hacc, hw⟩ | ⟨e, hd, hw⟩ := afterWord_cases pin.cmd s
  · simp [hw, seqErrorOf, illegalOf, hv, hd, hacc]
  · simp [hw, seqErrorOf, illegalOf, hv, hd, hacc]
  · simp [hw, seqErrorOf, illegalOf, hv, hd]

/-- What a cycle without reset leaves in the error flags. -/
theorem afterPort_errors {pin : PortIn} (hrst : pin.rst = false) (s : State) :
    (afterPort pin s).errSeq = (s.errSeq || seqErrorOf pin s) ∧ (afterPort pin s).errIll = (s.errIll || illegalOf pin) := by
  cases hv : pin.cmdValid with
  | true => rw [afterPort_of_word hrst hv]; exact afterWord_errors hv s
  | false => simp [afterPort_of_idle hrst hv, hv, seqErrorOf, illegalOf]

/-- Whether a presented word is refused does not depend on the host's further inputs. -/
@[simp] theorem seqErrorOf_setInput (pin : PortIn) (rest : List PortIn) (s : State) :
    seqErrorOf pin (setInput rest s) = seqErrorOf pin s := by
  simp only [seqErrorOf, accepts_setInput]

/-- Settles O25: without input nothing changes; a reset cycle clears both flags, any other can only set them. -/
theorem errorFlagsAreSticky : Obligations.ErrorFlagsAreSticky := by
  refine ⟨fun s t hin h => ?_, fun s t pin rest hin h => ?_⟩
  · obtain rfl := Host.Outcome.next.inj ((step_of_nil hin).symm.trans h)
    exact ⟨rfl, rfl⟩
  · obtain rfl := next_of_step_cons hin h
    cases hrst : pin.rst with
    | true => simp [afterPort_of_rst hrst]
    | false => simpa using afterPort_errors hrst (setInput rest s)

end Sys2Proof.Machine
end

section
/-! The invariants I1 to I6 of 10_state.md R29: at reset, under each register update, under a step, along a run. -/

namespace Sys2Proof.Machine

/-! ### Each update keeps I1 to I5 -/

/-- I1 to I5 hold where the set and the raw codes are 0 and nothing is checked or converted. -/
theorem blockInv_of_zero {s : State} (hcoef : s.coef = Vector.replicate 8 0) (hd1 : s.d1 = 0) (hd2 : s.d2 = 0)
    (hcrc : s.crcDone = false) (hvalid : s.valid = false) (hconv : s.convDone = false) : BlockInv s := by
  constructor <;> simp [hcoef, hd1, hd2, hcrc, hvalid, hconv, coefAt]

/-- I1 to I5 do not speak of the error flags or of the host's inputs. -/
theorem BlockInv.with_errors_input {s : State} (h : BlockInv s) (seq ill : Bool) (pins : List PortIn) :
    BlockInv { s with errSeq := seq, errIll := ill, input := pins } := { h with }

/-- I3 read backwards: without `VALID` there is no reading. -/
theorem BlockInv.convDone_of_not_valid {s : State} (h : BlockInv s) (hv : s.valid = false) : s.convDone = false := by
  by_contra hc
  have hvalid := (h.readingValid (Bool.of_not_eq_false hc)).1
  simp [hv] at hvalid

/-- With I1 and I2, a checksum written again over a validated set finds it valid again. -/
theorem BlockInv.checksum_matches {s : State} (h : BlockInv s) (hv : s.valid = true) :
    ((crc4 s.params.crcField s.coef).setWidth 8 == embedded s.params.crcField s.coef) = true := by
  have hdone := h.validChecked hv
  rw [← h.checkedCalc hdone, ← h.checkedEmb hdone, ← h.checkedValid hdone, hv]

/-- A coefficient may be written while the set is not validated: there is no reading then, and the register's loaded flag is
set with it (I4). -/
theorem BlockInv.writeCoef {s : State} (h : BlockInv s) (hv : s.valid = false) (idx : BitVec 3) (w : Coef) :
    BlockInv (writeCoef idx w s) where
  validChecked hv' := absurd hv' (Bool.eq_false_iff.mp hv)
  checkedLoaded := nofun
  checkedCalc := nofun
  checkedEmb := nofun
  checkedValid := nofun
  readingValid := h.readingValid
  readingTemp hc := absurd hc (Bool.eq_false_iff.mp (h.convDone_of_not_valid hv))
  readingP hc := absurd hc (Bool.eq_false_iff.mp (h.convDone_of_not_valid hv))
  d1Unloaded := h.d1Unloaded
  d2Unloaded := h.d2Unloaded
  coefUnloaded j hj := by
    rw [writeCoef_loaded] at hj
    have hne : j ≠ idx := by
      rintro rfl
      exact absurd (loaded_same s.loaded j) (Bool.eq_false_iff.mp hj)
    rw [loaded_other s.loaded hne] at hj
    exact (coefAt_setCoef_other s.coef w hne).trans (h.coefUnloaded j hj)
  uncheckedInvalid _ := hv

/-- A raw pressure code takes the reading away and sets its own flag. -/
theorem BlockInv.writeD1 {s : State} (h : BlockInv s) (d : RawCode) : BlockInv (writeD1 d s) :=
  { h with readingValid := nofun, readingTemp := nofun, readingP := nofun, d1Unloaded := nofun }

/-- A raw temperature code takes the reading away and sets its own flag. -/
theorem BlockInv.writeD2 {s : State} (h : BlockInv s) (d : RawCode) : BlockInv (writeD2 d s) :=
  { h with readingValid := nofun, readingTemp := nofun, readingP := nofun, d2Unloaded := nofun }

/-- The checksum of the present, complete set may be written: a reading stays, since a validated set is found valid again. -/
theorem BlockInv.writeChecksum {s : State} (h : BlockInv s) (hl : s.loaded = 0xFF) :
    BlockInv (writeChecksum (crc4 s.params.crcField s.coef) (embedded s.params.crcField s.coef) s) :=
  { h with
    validChecked := fun _ => rfl
    checkedLoaded := fun _ => hl
    checkedCalc := fun _ => rfl
    checkedEmb := fun _ => rfl
    checkedValid := fun _ => rfl
    readingValid := fun hc =>
      have hread := h.readingValid hc
      ⟨h.checksum_matches hread.1, hread.2⟩
    uncheckedInvalid := nofun }

/-- The reading of the present raw codes and set may be written where `CONV` is accepted. -/
theorem BlockInv.writeReading {s : State} (h : BlockInv s) (hready : s.valid = true ∧ s.d1v = true ∧ s.d2v = true) :
    BlockInv (writeReading (Machine.readingTemp s.params s.d1 s.d2 s.coef) (Machine.readingP s.params s.d1 s.d2 s.coef) s) :=
  { h with readingValid := fun _ => hready, readingTemp := fun _ => rfl, readingP := fun _ => rfl }

/-- `CLR` leaves a state with I1 to I5, whatever it finds. -/
theorem blockInv_clearAll (s : State) : BlockInv (clearAll s) := blockInv_of_zero rfl rfl rfl rfl rfl rfl

/-- Reset leaves a state with I1 to I5, whatever it finds. -/
theorem blockInv_resetBlock (s : State) : BlockInv (resetBlock s) := blockInv_of_zero rfl rfl rfl rfl rfl rfl

/-! ### Commands, words, cycles and steps keep I1 to I5 -/

/-- An accepted command keeps I1 to I5; its precondition is what its writes need. -/
theorem BlockInv.effect {i : Instr} {s : State} (h : BlockInv s) (hacc : accepts i s = true) : BlockInv (effect i s) := by
  cases i with
  | nop => exact h
  | clr => exact blockInv_clearAll s
  | ldc idx w => exact h.writeCoef (by simpa [accepts] using hacc) idx w
  | ldd1 d => exact h.writeD1 d
  | ldd2 d => exact h.writeD2 d
  | crcv => exact h.writeChecksum (by simpa [accepts] using hacc)
  | conv => exact h.writeReading (by simpa [accepts, and_assoc] using hacc)

/-- A taken word keeps I1 to I5: a refused or illegal one writes an error flag only. -/
theorem BlockInv.afterWord {s : State} (h : BlockInv s) (cmd : Word) : BlockInv (afterWord cmd s) := by
  obtain ⟨i, -, hacc, hw⟩ | ⟨i, -, -, hw⟩ | ⟨e, -, hw⟩ := afterWord_cases cmd s <;> rw [hw]
  · exact h.effect hacc
  · exact h.with_errors_input true s.errIll s.input
  · exact h.with_errors_input s.errSeq true s.input

/-- A handshake cycle keeps I1 to I5. -/
theorem BlockInv.afterPort {s : State} (h : BlockInv s) (pin : PortIn) : BlockInv (afterPort pin s) := by
  cases hrst : pin.rst with
  | true => rw [afterPort_of_rst hrst]; exact blockInv_resetBlock s
  | false =>
    cases hv : pin.cmdValid with
    | true => rw [afterPort_of_word hrst hv]; exact h.afterWord pin.cmd
    | false => rw [afterPort_of_idle hrst hv]; exact h

/-- A step keeps I1 to I5. -/
theorem BlockInv.step {s t : State} (h : BlockInv s) (hst : step s = .next t) : BlockInv t := by
  obtain ⟨-, rfl⟩ | ⟨pin, rest, -, rfl⟩ := step_cases hst
  · exact h
  · exact (h.with_errors_input s.errSeq s.errIll rest).afterPort pin

/-- Settles O31: reset leaves zeros and clears every flag. -/
theorem resetMeetsInvariants : Obligations.ResetMeetsInvariants := blockInv_resetBlock State.reset

/-- Settles O32, by the effect of each accepted command; everything else writes error flags only or resets. -/
theorem stepKeepsInvariants : Obligations.StepKeepsInvariants := fun _ _ h hst => h.step hst

/-! ### I6, and the reachable states -/

/-- I6 for a taken word: with `VALID` = 1 an `LDC` is refused, so that only `CLR` could write the set. -/
theorem afterWord_coef_of_valid {cmd : Word} {s : State} (hv : s.valid = true) (hclr : decode cmd ≠ .ok .clr) :
    (afterWord cmd s).coef = s.coef := by
  obtain ⟨i, hd, hacc, hw⟩ | ⟨i, -, -, hw⟩ | ⟨e, -, hw⟩ := afterWord_cases cmd s <;> rw [hw]
  case inl =>
    have hldc : ∀ idx w, i ≠ .ldc idx w := by
      rintro idx w rfl
      simp [accepts, hv] at hacc
    exact (effect_coef_loaded s (fun hi => hclr (hi ▸ hd)) hldc).1
  all_goals rfl

/-- I6 for a cycle that neither resets nor presents a `CLR`. -/
theorem afterPort_coef_of_valid {pin : PortIn} {s : State} (hv : s.valid = true) (hrst : pin.rst = false)
    (hclr : ¬(pin.cmdValid = true ∧ decode pin.cmd = .ok .clr)) : (afterPort pin s).coef = s.coef := by
  cases hcmd : pin.cmdValid with
  | true => rw [afterPort_of_word hrst hcmd]; exact afterWord_coef_of_valid hv fun hd => hclr ⟨hcmd, hd⟩
  | false => rw [afterPort_of_idle hrst hcmd]

/-- What every step of a machine keeps, every run keeps. -/
theorem run_keeps (M : Host.Core) {P : M.State → Prop} (hstep : ∀ s t, P s → M.step s = .next t → P t) {k : Nat}
    {s t : M.State} (hs : P s) (hrun : M.run k s = .next t) : P t := by
  induction k generalizing s with
  | zero => exact Host.Outcome.next.inj hrun ▸ hs
  | succ k ih =>
    cases hst : M.step s with
    | next u => exact ih (hstep s u hs hst) ((run_succ M k hst).symm.trans hrun)
    | fault r => simp [Host.Core.run, hst] at hrun
    | refused r => simp [Host.Core.run, hst] at hrun

/-- Settles O34: I1 to I5 hold at reset and every step keeps them; I6 holds of every state. -/
theorem reachableStatesMeetInvariants : Obligations.ReachableStatesMeetInvariants := by
  intro pr pins k s hrun
  refine ⟨run_keeps Sys2Proof.core stepKeepsInvariants (blockInv_of_zero rfl rfl rfl rfl rfl rfl) hrun, ?_⟩
  intro pin rest t hv hin hrst hclr hst
  obtain rfl := next_of_step_cons hin hst
  exact afterPort_coef_of_valid (s := setInput rest s) hv hrst hclr

end Sys2Proof.Machine
end

section
/-! The reset state (10_state.md R28) and the bits of the status word (R23). -/

namespace Sys2Proof.Machine

/-- Settles O1: the registers and flags of the reset state are 0 as written out, and `cmd_ready` is the negation of `rst`. -/
theorem resetStateIsAllZero : Obligations.ResetStateIsAllZero := by
  refine ⟨fun idx => Vector.getElem_replicate idx.isLt, rfl, rfl, rfl, rfl, rfl, rfl, rfl, rfl, rfl, rfl, rfl, rfl, rfl, rfl,
    rfl, fun pin hrst => ?_⟩
  simp [outputs, hrst]

/-- The lowest bit of a word with a flag appended is the flag. -/
theorem getLsbD_append_flagBit_zero {n : Nat} (x : BitVec n) (b : Bool) : (x ++ flagBit b).getLsbD 0 = b := by
  rw [BitVec.getLsbD_append, if_pos Nat.one_pos, flagBit, BitVec.getLsbD_ofBool]
  exact Bool.true_and b

/-- The bits above it are those of the word. -/
theorem getLsbD_append_bit_succ {n : Nat} (x : BitVec n) (b : BitVec 1) (k : Nat) :
    (x ++ b).getLsbD (k + 1) = x.getLsbD k := by
  rw [BitVec.getLsbD_append, if_neg (Nat.not_lt.mpr (Nat.le_add_left 1 k)), Nat.add_sub_cancel]

/-- Settles O23, by taking the appended bits off the layout one after another. -/
theorem statusBitsAreTheFlags : Obligations.StatusBitsAreTheFlags := by
  intro s
  unfold status
  have unusedBit : (s.loaded ++ 0#1).getLsbD 0 = false := getLsbD_append_flagBit_zero s.loaded false
  refine ⟨getLsbD_append_flagBit_zero _ _, ?_, ?_, ?_, ?_, ?_, ?_, ?_, fun k _ => ?loaded⟩
  case loaded => simp only [Nat.add_comm 8 k, getLsbD_append_bit_succ]
  all_goals simp only [getLsbD_append_bit_succ, getLsbD_append_flagBit_zero, unusedBit]

end Sys2Proof.Machine
end

section
/-! A repeated command (20_memory.md section 3, R38): its precondition and its writes do not depend on what it wrote before. -/

namespace Sys2Proof.Machine

/-- An accepted command leaves its own precondition as it found it. -/
@[simp] theorem accepts_effect (i : Instr) (s : State) : accepts i (effect i s) = accepts i s := by
  cases i <;> rfl

/-- A refusal leaves every precondition as it found it: `ERR_SEQ` steers nothing. -/
@[simp] theorem accepts_raiseSeqError (i : Instr) (s : State) : accepts i (raiseSeqError s) = accepts i s := by
  cases i <;> rfl

/-- The same word written again into the same register leaves the same coefficients, flags and all else. -/
theorem writeCoef_writeCoef (idx : BitVec 3) (w : Coef) (s : State) :
    writeCoef idx w (writeCoef idx w s) = writeCoef idx w s := by
  simp only [writeCoef, setCoef, Vector.set_set, BitVec.or_assoc, BitVec.or_self]

/-- What a command writes it writes again: `CRCV` does not write the set it checks (R67), `CONV` none of what it reads (R92). -/
theorem effect_effect (i : Instr) (s : State) : effect i (effect i s) = effect i s := by
  cases i with
  | ldc idx w => exact writeCoef_writeCoef idx w s
  | _ => rfl

/-- Settles O28: accepted, the command is accepted again and its effect is idempotent; refused, it is refused again. -/
theorem repeatedCommandChangesNothing : Obligations.RepeatedCommandChangesNothing := by
  intro i s t h
  obtain ⟨hacc, rfl⟩ | ⟨href, rfl⟩ := exec_cases h
  · rw [exec_of_accepts ((accepts_effect i s).trans hacc), effect_effect]
  · exact exec_of_refused ((accepts_raiseSeqError i s).trans href)

end Sys2Proof.Machine
end

section
/-! The host's words from the wire, most significant byte first, and the PROM command bytes (20_memory.md R32, R34, R35). -/

namespace Sys2Proof.HostSide

/-- A further byte from the wire shifts what came before up by 256. -/
theorem toNat_append_byte {n : Nat} (x : BitVec n) (b : Byte) : (x ++ b).toNat = x.toNat * 256 + b.toNat := by
  rw [BitVec.toNat_append, ← Nat.shiftLeft_add_eq_or_of_lt b.isLt, Nat.shiftLeft_eq]

/-- Two bytes, the most significant first (R34). -/
theorem coefFromWire_toNat (b0 b1 : Byte) : (coefFromWire b0 b1).toNat = b0.toNat * 256 + b1.toNat :=
  toNat_append_byte b0 b1

/-- Three bytes, the most significant first (R35): a coefficient word's two, then one more. -/
theorem codeFromWire_toNat (b0 b1 b2 : Byte) :
    (codeFromWire b0 b1 b2).toNat = b0.toNat * 65536 + b1.toNat * 256 + b2.toNat := by
  calc (codeFromWire b0 b1 b2).toNat
      = (coefFromWire b0 b1).toNat * 256 + b2.toNat := toNat_append_byte (b0 ++ b1) b2
    _ = b0.toNat * 65536 + b1.toNat * 256 + b2.toNat := by rw [coefFromWire_toNat]; ring

/-- The PROM command bytes stay below 2^8 (R32). -/
theorem promRead_toNat (i : BitVec 3) : (promRead i).toNat = 0xA0 + 2 * i.toNat := by
  revert i
  decide

/-- Settles O54, by the wire words byte after byte. -/
theorem hostAssemblesBigEndian : Obligations.HostAssemblesBigEndian :=
  ⟨coefFromWire_toNat, codeFromWire_toNat, promRead_toNat⟩

end Sys2Proof.HostSide
end

section
/-! Machine words by their fields: equality of words, the fields of a shifted and of a widened operand. -/

namespace Sys2Proof

/-- Two slices are equal exactly when their high and their low parts are. -/
theorem extractLsb'_eq_iff_parts {n : Nat} (x y : BitVec n) (start high low : Nat) :
    x.extractLsb' start (high + low) = y.extractLsb' start (high + low) ↔
      x.extractLsb' (start + low) high = y.extractLsb' (start + low) high ∧
        x.extractLsb' start low = y.extractLsb' start low := by
  rw [← BitVec.extractLsb'_append_extractLsb'_eq_extractLsb' rfl, ← BitVec.extractLsb'_append_extractLsb'_eq_extractLsb' rfl]
  refine ⟨fun h => ⟨?_, ?_⟩, fun ⟨hhigh, hlow⟩ => by rw [hhigh, hlow]⟩
  · simpa only [BitVec.extractLsb'_append_eq_left] using congrArg (·.extractLsb' low high) h
  · simpa only [BitVec.extractLsb'_append_eq_right] using congrArg (·.extractLsb' 0 low) h

/-- A slice above a word's own bits is 0. -/
theorem extractLsb'_eq_zero_of_le {n start : Nat} (x : BitVec n) (len : Nat) (h : n ≤ start) :
    x.extractLsb' start len = 0#len := by
  ext k hk
  rw [BitVec.getElem_extractLsb', BitVec.getLsbD_of_ge x _ (by omega), BitVec.getElem_zero]

/-- A slice of a shifted word, above the shift, is the slice of the word lower by the shift. -/
theorem extractLsb'_shiftLeft_of_le {n k start len : Nat} (x : BitVec n) (hk : k ≤ start) (hn : start + len ≤ n) :
    (x <<< k).extractLsb' start len = x.extractLsb' (start - k) len := by
  ext j hj
  simp only [BitVec.getElem_extractLsb', BitVec.getLsbD_shiftLeft]
  simp [show start + j < n by omega, show ¬start + j < k by omega, Nat.sub_add_comm hk]

/-- A slice of a shifted word, below the shift, is 0. -/
theorem extractLsb'_shiftLeft_eq_zero {n k start len : Nat} (x : BitVec n) (hk : start + len ≤ k) :
    (x <<< k).extractLsb' start len = 0#len := by
  ext j hj
  simp [BitVec.getElem_extractLsb', BitVec.getLsbD_shiftLeft, show start + j < k by omega]

/-- A word is its operation code and the bits 27:0. -/
theorem word_eq_iff_op_rest (x y : Word) :
    x = y ↔ x.extractLsb' 28 4 = y.extractLsb' 28 4 ∧ x.extractLsb' 0 28 = y.extractLsb' 0 28 := by
  simpa only [BitVec.extractLsb'_eq_self] using extractLsb'_eq_iff_parts x y 0 4 28

/-- A word is its operation code, the bits 27:24 and the code field (R44). -/
theorem word_eq_iff_code_fields (x y : Word) :
    x = y ↔ x.extractLsb' 28 4 = y.extractLsb' 28 4 ∧ x.extractLsb' 24 4 = y.extractLsb' 24 4 ∧
      x.extractLsb' 0 24 = y.extractLsb' 0 24 := by
  rw [word_eq_iff_op_rest, extractLsb'_eq_iff_parts x y 0 4 24]

/-- A word is its operation code, bit 27, the index field, the bits 23:16 and the word field (R44). -/
theorem word_eq_iff_ldc_fields (x y : Word) :
    x = y ↔ x.extractLsb' 28 4 = y.extractLsb' 28 4 ∧ x.extractLsb' 27 1 = y.extractLsb' 27 1 ∧
      x.extractLsb' 24 3 = y.extractLsb' 24 3 ∧ x.extractLsb' 16 8 = y.extractLsb' 16 8 ∧
      x.extractLsb' 0 16 = y.extractLsb' 0 16 := by
  rw [word_eq_iff_code_fields, extractLsb'_eq_iff_parts x y 24 1 3, extractLsb'_eq_iff_parts x y 0 8 16, and_assoc]

end Sys2Proof
end

section
/-! The opcode map of 30_encoding.md R45 row by row: which words spell a command (R45), which spell none (R46), and how many
spell one. -/

namespace Sys2Proof

open Sys2Proof.Laws.OpField (opcode)

/-- The row of a command: the rows stand in the order of the operation codes. -/
def rowOf (i : Instr) : OpcodeRow := opcodeRows[(opcode i).toNat]'(by cases i <;> simp [opcode, opcodeRows])

/-- Every row of the map reads its own commands only. -/
theorem rowOf_read {r : OpcodeRow} (hr : r ∈ opcodeRows) (cmd : Word) : rowOf (r.read cmd) = r := by
  simp only [opcodeRows, List.mem_cons, List.not_mem_nil, or_false] at hr
  obtain rfl | rfl | rfl | rfl | rfl | rfl | rfl := hr <;> rfl

/-- R45: a word decodes to a command exactly when it matches the command's row and the row reads it as that command. -/
theorem decode_eq_ok_iff {cmd : Word} {i : Instr} :
    decode cmd = .ok i ↔ cmd &&& (rowOf i).mask = (rowOf i).bits ∧ (rowOf i).read cmd = i := by
  refine ⟨fun h => ?_, fun ⟨hmatch, hread⟩ => ?_⟩
  · obtain ⟨r, hr, hs, rfl⟩ := row_of_decode h
    rw [rowOf_read hr]
    exact ⟨beq_iff_eq.mp hs, rfl⟩
  · rw [decode_of_row (r := rowOf i) (List.getElem_mem _) (beq_iff_eq.mpr hmatch), hread]

/-- `LDC`: the row, and the operands as they stand in the word (R44). -/
theorem decode_eq_ldc_iff {cmd : Word} {idx : BitVec 3} {w : Coef} :
    decode cmd = .ok (.ldc idx w) ↔ cmd &&& 0xF8FF0000 = 0x20000000 ∧ fieldIdx cmd = idx ∧ fieldWord cmd = w :=
  decode_eq_ok_iff.trans (and_congr_right fun _ => .of_eq (Instr.ldc.injEq ..))

/-- `LDD1`: the row, and the operand as it stands in the word (R44). -/
theorem decode_eq_ldd1_iff {cmd : Word} {d : RawCode} :
    decode cmd = .ok (.ldd1 d) ↔ cmd &&& 0xFF000000 = 0x30000000 ∧ fieldCode cmd = d :=
  decode_eq_ok_iff.trans (and_congr_right fun _ => .of_eq (Instr.ldd1.injEq ..))

/-- `LDD2`: the row, and the operand as it stands in the word (R44). -/
theorem decode_eq_ldd2_iff {cmd : Word} {d : RawCode} :
    decode cmd = .ok (.ldd2 d) ↔ cmd &&& 0xFF000000 = 0x40000000 ∧ fieldCode cmd = d :=
  decode_eq_ok_iff.trans (and_congr_right fun _ => .of_eq (Instr.ldd2.injEq ..))

/-- A command without operands is read from every word of its row. -/
theorem decode_eq_iff_of_read {cmd : Word} {i : Instr} (hread : (rowOf i).read cmd = i) :
    decode cmd = .ok i ↔ cmd &&& (rowOf i).mask = (rowOf i).bits :=
  decode_eq_ok_iff.trans (and_iff_left hread)

/-- Settles O7: the rows without operands read one command each, the others the operands as they stand. -/
theorem wordSpellsCommandByItsRow : Obligations.WordSpellsCommandByItsRow := by
  intro cmd
  refine ⟨decode_eq_iff_of_read rfl, decode_eq_iff_of_read rfl, ?ldcRow, ?ldcOperands, ?ldd1Row, ?ldd1Operand, ?ldd2Row,
    ?ldd2Operand, decode_eq_iff_of_read rfl, decode_eq_iff_of_read rfl⟩
  case ldcRow => simp [decode_eq_ldc_iff]
  case ldcOperands =>
    intro idx w h
    obtain ⟨-, rfl, rfl⟩ := decode_eq_ldc_iff.mp h
    exact ⟨rfl, rfl⟩
  case ldd1Row => simp [decode_eq_ldd1_iff]
  case ldd1Operand => exact fun d h => (decode_eq_ldd1_iff.mp h).2.symm
  case ldd2Row => simp [decode_eq_ldd2_iff]
  case ldd2Operand => exact fun d h => (decode_eq_ldd2_iff.mp h).2.symm

/-! ### The illegal words by fields -/

/-- The mask of the commands without operands keeps the whole word. -/
theorem and_fullMask (cmd : Word) : cmd &&& 0xFFFFFFFF = cmd := BitVec.and_allOnes

/-- The rows of `NOP`, `CLR`, `CRCV` and `CONV` fix the operation code and every bit of 27:0. -/
theorem and_fullMask_eq_iff (cmd bits : Word) :
    cmd &&& 0xFFFFFFFF = bits ↔
      cmd.extractLsb' 28 4 = bits.extractLsb' 28 4 ∧ cmd.extractLsb' 0 28 = bits.extractLsb' 0 28 := by
  rw [and_fullMask, word_eq_iff_op_rest]

/-- The rows of `LDD1` and `LDD2` fix the operation code and the bits 27:24. -/
theorem and_codeMask_eq_iff (cmd bits : Word) :
    cmd &&& 0xFF000000 = bits ↔
      cmd.extractLsb' 28 4 = bits.extractLsb' 28 4 ∧ cmd.extractLsb' 24 4 = bits.extractLsb' 24 4 ∧
        0 = bits.extractLsb' 0 24 := by
  have hones (x : BitVec 4) : x &&& 0xF#4 = x := BitVec.and_allOnes
  rw [word_eq_iff_code_fields]
  simp [BitVec.extractLsb'_and, hones]

/-- The row of `LDC` fixes the operation code, bit 27 and the bits 23:16. -/
theorem and_ldcMask_eq_iff (cmd : Word) :
    cmd &&& 0xF8FF0000 = 0x20000000 ↔
      cmd.extractLsb' 28 4 = 2 ∧ cmd.extractLsb' 27 1 = 0 ∧ cmd.extractLsb' 16 8 = 0 := by
  have hones4 (x : BitVec 4) : x &&& 0xF#4 = x := BitVec.and_allOnes
  have hones1 (x : BitVec 1) : x &&& 0x1#1 = x := BitVec.and_allOnes
  have hones8 (x : BitVec 8) : x &&& 0xFF#8 = x := BitVec.and_allOnes
  rw [word_eq_iff_ldc_fields]
  simp [BitVec.extractLsb'_and, hones4, hones1, hones8]

/-- Below 7 the operation codes are those of the seven rows. -/
theorem opcode_cases (op : BitVec 4) :
    7 ≤ op.toNat ∨ op = 0 ∨ op = 1 ∨ op = 2 ∨ op = 3 ∨ op = 4 ∨ op = 5 ∨ op = 6 := by
  revert op
  decide

/-- Settles O8: a word matches no row; its operation code leaves at most one row to match, and that row fixes the bits listed. -/
theorem illegalWordsAreTheListedOnes : Obligations.IllegalWordsAreTheListedOnes := by
  intro cmd
  rw [decode_error_iff]
  simp only [opcodeRows, OpcodeRow.spells, List.forall_mem_cons, beq_eq_false_iff_ne, ne_eq, and_fullMask_eq_iff,
    and_ldcMask_eq_iff, and_codeMask_eq_iff]
  obtain hlarge | hop | hop | hop | hop | hop | hop | hop := opcode_cases (cmd.extractLsb' 28 4)
  case inl =>
    have hne (op : BitVec 4) (hsmall : op.toNat < 7) : cmd.extractLsb' 28 4 ≠ op := by
      rintro rfl
      omega
    simp [-BitVec.extractLsb'_toNat, hlarge, hne]
  all_goals simp [hop, ← not_and_or]

/-! ### The legal words are the encodings -/

/-- The words of the row of `LDC` with given operands: the encoding alone (R50). -/
theorem ldc_fields_iff_eq_encode {cmd : Word} {idx : BitVec 3} {w : Coef} :
    cmd &&& 0xF8FF0000 = 0x20000000 ∧ fieldIdx cmd = idx ∧ fieldWord cmd = w ↔ cmd = encode (.ldc idx w) := by
  have hencode : cmd = encode (.ldc idx w) ↔ cmd.extractLsb' 28 4 = 2 ∧ cmd.extractLsb' 27 1 = 0 ∧ fieldIdx cmd = idx ∧
      cmd.extractLsb' 16 8 = 0 ∧ fieldWord cmd = w := by
    rw [word_eq_iff_ldc_fields]
    simp [encode, fieldIdx, fieldWord, BitVec.extractLsb'_or, BitVec.extractLsb'_setWidth_of_le, extractLsb'_shiftLeft_of_le,
      extractLsb'_shiftLeft_eq_zero, extractLsb'_eq_zero_of_le]
  rw [hencode, and_ldcMask_eq_iff]
  tauto

/-- The words of the row of `LDD1` or `LDD2` with a given operand: the row's bits with the operand below them (R50). -/
theorem code_fields_iff_eq_or {cmd bits : Word} {d : RawCode} (hbits : bits.extractLsb' 0 24 = 0) :
    cmd &&& 0xFF000000 = bits ∧ fieldCode cmd = d ↔ cmd = bits ||| d.setWidth 32 := by
  rw [and_codeMask_eq_iff, word_eq_iff_code_fields]
  simp [fieldCode, hbits, BitVec.extractLsb'_or, BitVec.extractLsb'_setWidth_of_le, extractLsb'_eq_zero_of_le, and_assoc]

/-- A word decodes to a command exactly when it is the command's encoding. -/
theorem decode_eq_ok_iff_eq_encode {cmd : Word} {i : Instr} : decode cmd = .ok i ↔ cmd = encode i := by
  cases i with
  | ldc idx w => exact decode_eq_ldc_iff.trans ldc_fields_iff_eq_encode
  | ldd1 d => exact decode_eq_ldd1_iff.trans (code_fields_iff_eq_or rfl)
  | ldd2 d => exact decode_eq_ldd2_iff.trans (code_fields_iff_eq_or rfl)
  | nop | clr | crcv | conv => exact (decode_eq_iff_of_read rfl).trans (Eq.congr_left (and_fullMask cmd))

/-- Different commands have different words. -/
theorem encode_injective : Function.Injective encode := by
  intro i j h
  exact Except.ok.inj ((decode_eq_ok_iff_eq_encode.mpr rfl).symm.trans (decode_eq_ok_iff_eq_encode.mpr h))

/-- The commands by their operands: four without, `LDC` with an index and a word, `LDD1` and `LDD2` with a code. -/
def instrEquivOperands : Instr ≃ Fin 4 ⊕ (BitVec 3 × Coef) ⊕ RawCode ⊕ RawCode where
  toFun
    | .nop => .inl 0
    | .clr => .inl 1
    | .crcv => .inl 2
    | .conv => .inl 3
    | .ldc idx w => .inr (.inl (idx, w))
    | .ldd1 d => .inr (.inr (.inl d))
    | .ldd2 d => .inr (.inr (.inr d))
  invFun
    | .inl 0 => .nop
    | .inl 1 => .clr
    | .inl 2 => .crcv
    | .inl 3 => .conv
    | .inr (.inl (idx, w)) => .ldc idx w
    | .inr (.inr (.inl d)) => .ldd1 d
    | .inr (.inr (.inr d)) => .ldd2 d
  left_inv i := by cases i <;> rfl
  right_inv
    | .inl n => by fin_cases n <;> rfl
    | .inr (.inl _) => rfl
    | .inr (.inr (.inl _)) => rfl
    | .inr (.inr (.inr _)) => rfl

/-- There are 4 + 2^3 · 2^16 + 2 · 2^24 commands. -/
theorem card_instr : Nat.card Instr = 34078724 := by
  have hbits (n : Nat) : Nat.card (BitVec n) = 2 ^ n := by
    rw [Nat.card_congr BitVec.equivFin.toEquiv, Nat.card_fin]
  rw [Nat.card_congr instrEquivOperands, Nat.card_sum, Nat.card_sum, Nat.card_sum, Nat.card_prod, Nat.card_fin,
    hbits, hbits, hbits]
  norm_num

/-- Settles O9: the legal words are the encodings, each of one command. -/
theorem legalWordCount : Obligations.LegalWordCount := by
  have hlegal : {cmd : Word | ∃ i, decode cmd = .ok i} = Set.range encode := by
    ext cmd
    exact exists_congr fun i => decode_eq_ok_iff_eq_encode.trans eq_comm
  calc Nat.card {cmd : Word // ∃ i, decode cmd = .ok i}
      = Nat.card (Set.range encode) := congrArg (fun legal : Set Word => Nat.card legal) hlegal
    _ = Nat.card Instr := Nat.card_range_of_injective encode_injective
    _ = 34078724 := card_instr

end Sys2Proof
end

section
/-! The assembler (30_encoding.md R50, R51): operands in range, and the pseudo-commands. -/

namespace Sys2Proof.Asm

/-- The words of a line whose operands have a range: those of its commands in the range, none outside it. -/
theorem assemble_eq_ite {l : AsmLine} {words : List Word} {inRange : Prop} [Decidable inRange]
    (hwf : l.wf = true ↔ inRange) (hwords : inRange → (expand l).map encode = words) :
    assemble l = if inRange then some words else none := by
  by_cases h : inRange
  · rw [assemble, if_pos (hwf.mpr h), if_pos h, hwords h]
  · rw [assemble, if_neg (mt hwf.mp h), if_neg h]

/-- A code in its range is the same numeral in the word as in its field. -/
theorem setWidth_code {d : Nat} (h : d ≤ 0xFFFFFF) : (BitVec.ofNat 24 d).setWidth 32 = BitVec.ofNat 32 d :=
  BitVec.setWidth_ofNat_of_le_of_lt (by decide) (Nat.lt_succ_of_le h)

/-- Settles O13: the check of each line is the range of its operands, and in the range no operand loses a bit. -/
theorem assemblerEncodesInRangeOperandsOnly : Obligations.AssemblerEncodesInRangeOperandsOnly := by
  have hcode (d : Nat) : decide (d < 2 ^ 24) = true ↔ d ≤ 0xFFFFFF := decide_eq_true_iff.trans Nat.lt_succ_iff
  refine ⟨fun i w => assemble_eq_ite ?_ fun ⟨hi, hw⟩ => ?_, fun d => assemble_eq_ite (hcode d) fun hd => ?_,
    fun d => assemble_eq_ite (hcode d) fun hd => ?_⟩
  · simp [AsmLine.wf, Nat.lt_succ_iff]
  · have hidx : (BitVec.ofNat 3 i).setWidth 32 = BitVec.ofNat 32 i :=
      BitVec.setWidth_ofNat_of_le_of_lt (by decide) (Nat.lt_succ_of_le hi)
    have hword : (BitVec.ofNat 16 w).setWidth 32 = BitVec.ofNat 32 w :=
      BitVec.setWidth_ofNat_of_le_of_lt (by decide) (Nat.lt_succ_of_le hw)
    simp [expand, encode, hidx, hword]
  · simp [expand, encode, setWidth_code hd]
  · simp [expand, encode, setWidth_code hd]

/-- Settles O12: the words and codes come back from their numerals, the indices from their places in the list. -/
theorem pseudoCommandsExpand : Obligations.PseudoCommandsExpand := by
  refine ⟨fun w0 w1 w2 w3 w4 w5 w6 w7 => ?_, fun d1 d2 => ?_⟩
  · simp [expand, loadWords]
  · simp [expand]

end Sys2Proof.Asm
end

section
/-! A step with a presented word (30_encoding.md R49). -/

namespace Sys2Proof.Machine

/-- Settles O3: the handshake cycle takes the presented word, which spells the command. -/
theorem stepRunsDecodedCommand : Obligations.StepRunsDecodedCommand := by
  intro s pin rest i hin hrst hv hd
  calc step s
      = .next (afterWord pin.cmd (setInput rest s)) := by rw [step_of_cons hin, afterPort_of_word hrst hv]
    _ = takeWord pin.cmd (setInput rest s) := (takeWord_eq_next _ _).symm
    _ = exec i { s with input := rest } := takeWord_of_ok hd _

end Sys2Proof.Machine
end

section
/-! The housekeeping and load commands (40_load_commands.md R53 to R57): their words, and what they write. -/

namespace Sys2Proof.Machine

/-- A validated set stays validated under every other command's effect than `CLR`'s: `CRCV` alone writes `VALID` too, and it
finds the set it checks as it was (I1, I2). -/
theorem effect_valid_of_ne_clr {i : Instr} {s : State} (h : BlockInv s) (hv : s.valid = true) (hclr : i ≠ .clr) :
    (effect i s).valid = true := by
  by_cases hcrcv : i = .crcv
  · subst hcrcv
    exact h.checksum_matches hv
  · obtain ⟨-, -, hkept⟩ := effect_checksum_valid s hclr hcrcv
    exact hkept.trans hv

/-- Settles O15, the next state as the effect of an unguarded command, the last clause by `effect_valid_of_ne_clr`, as a refusal
leaves `VALID` alone. -/
theorem clrClearsAllButErrorFlags : Obligations.ClrClearsAllButErrorFlags := by
  refine ⟨decode_eq_ok_iff_eq_encode.mpr rfl, fun s => exec_of_accepts rfl, fun i s t h hexec hv ht => ?_⟩
  by_contra hclr
  have hkept : t.valid = true := by
    obtain ⟨-, rfl⟩ | ⟨-, rfl⟩ := exec_cases hexec
    · exact effect_valid_of_ne_clr h hv hclr
    · exact hv
  exact absurd hkept (Bool.eq_false_iff.mp ht)

/-- Settles O16: the precondition is `VALID` = 0, and the write is read back at its own index and at every other. -/
theorem ldcLoadsUnlessValidated : Obligations.LdcLoadsUnlessValidated := by
  refine ⟨fun idx w => decode_eq_ok_iff_eq_encode.mpr rfl, fun idx w s hv => ?refused, fun idx w s hv => ?accepted⟩
  case refused =>
    have href : accepts (.ldc idx w) s = false := by simp [accepts, hv]
    exact exec_of_refused href
  case accepted =>
    have hacc : accepts (.ldc idx w) s = true := by simp [accepts, hv]
    exact ⟨writeCoef idx w s, exec_of_accepts hacc, rfl, coefAt_setCoef_same s.coef idx w, loaded_same s.loaded idx,
      fun _ hj => effect_ldc_other w s hj, fun h => h.convDone_of_not_valid hv⟩

/-- Settles O14: a word with `OP` = 0 other than 0 has some bit of 27:0 set, so that R46 lists it as illegal. -/
theorem nopLeavesTheState : Obligations.NopLeavesTheState := by
  refine ⟨decode_eq_ok_iff_eq_encode.mpr rfl, fun s => exec_of_accepts rfl, fun cmd hop hne => ?_⟩
  have hrest : cmd.extractLsb' 0 28 ≠ 0 := fun h => hne ((word_eq_iff_op_rest cmd 0).mpr ⟨hop, h⟩)
  exact (illegalWordsAreTheListedOnes cmd).mpr (.inr (.inl ⟨.inl hop, hrest⟩))

/-- Settles O17: the word is the encoding, and `LDD1` has no precondition. -/
theorem ldd1LoadsPressureCode : Obligations.Ldd1LoadsPressureCode :=
  fun _ => ⟨decode_eq_ok_iff_eq_encode.mpr rfl, fun _ => exec_of_accepts rfl⟩

/-- Settles O18: the word is the encoding, and `LDD2` has no precondition. -/
theorem ldd2LoadsTemperatureCode : Obligations.Ldd2LoadsTemperatureCode :=
  fun _ => ⟨decode_eq_ok_iff_eq_encode.mpr rfl, fun _ => exec_of_accepts rfl⟩

end Sys2Proof.Machine
end

section
/-! The checksum field of word 7, and the register of R63 word by word: what the field hides, what a shift leaves in the low bits,
and linearity. -/

namespace Sys2Proof.Machine

/-- The width of the checksum field at the low end of word 7. -/
def fieldWidth : CrcField → Nat
  | .nibble => 4
  | .byte => 8

/-- `CRC_FIELD_MASK` has exactly the bits of the field set (R6). -/
@[simp] theorem getLsbD_crcFieldMask (f : CrcField) (k : Nat) : (crcFieldMask f).getLsbD k = decide (k < fieldWidth f) := by
  by_cases hk : k < 16
  · cases f <;> revert k <;> decide
  · have hwidth : ¬k < fieldWidth f := by cases f <;> simp only [fieldWidth] <;> omega
    rw [BitVec.getLsbD_of_ge _ _ (not_lt.mp hk), decide_eq_false hwidth]

/-- The embedded checksum is the field itself (R62). -/
theorem embedded_eq_field (f : CrcField) (cs : Coeffs) : embedded f cs = (cs[7].setWidth (fieldWidth f)).setWidth 8 := by
  apply BitVec.eq_of_getLsbD_eq
  intro k hk
  simp [embedded, hk, Bool.and_comm]

/-- Masking word 7 keeps exactly the bits above the field (R61). -/
theorem getLsbD_maskedWord7 (f : CrcField) (cs : Coeffs) (k : Nat) :
    (maskedWord7 f cs).getLsbD k = (cs[7].getLsbD k && decide (fieldWidth f ≤ k)) := by
  by_cases hk : k < 16
  · rw [maskedWord7, BitVec.getLsbD_and, BitVec.getLsbD_not, getLsbD_crcFieldMask, decide_eq_true hk, Bool.true_and,
      ← decide_not, decide_eq_decide.mpr not_lt]
  · simp [BitVec.getLsbD_of_ge _ k (not_lt.mp hk)]

/-- The two message bytes of a word into the register, the high byte first. -/
def stepWord (r : BitVec 16) (w : Coef) : BitVec 16 := stepByte (stepByte r (highByte w)) (lowByte w)

/-- The register after `C[0]` to `C[6]`, which no mask touches. -/
def headRegister (cs : Coeffs) : BitVec 16 :=
  stepWord (stepWord (stepWord (stepWord (stepWord (stepWord (stepWord 0 cs[0]) cs[1]) cs[2]) cs[3]) cs[4]) cs[5]) cs[6]

/-- The register ends with the masked word 7. -/
theorem crcRegister_eq_stepWord (f : CrcField) (cs : Coeffs) :
    crcRegister f cs = stepWord (headRegister cs) (maskedWord7 f cs) := rfl

/-- Unmasked, the register ends with word 7 as it stands. -/
theorem unmaskedRegister_eq_stepWord (cs : Coeffs) : unmaskedRegister cs = stepWord (headRegister cs) cs[7] :=
  unmaskedRegister_eq cs

/-- The checksum depends on word 7 through its masked copy only. -/
theorem crc4_eq_of_masked_eq {f g : CrcField} {a b : Coeffs} (hhead : headRegister a = headRegister b)
    (hmask : maskedWord7 f a = maskedWord7 g b) : crc4 f a = crc4 g b := by
  rw [crc4, crc4, crcRegister_eq_stepWord, crcRegister_eq_stepWord, hhead, hmask]

@[simp] theorem headRegister_setCoef_seven (cs : Coeffs) (w : Coef) : headRegister (setCoef cs 7 w) = headRegister cs := by
  simp [headRegister, setCoef]

@[simp] theorem getElem_setCoef_seven (cs : Coeffs) (w : Coef) : (setCoef cs 7 w)[7] = w :=
  coefAt_setCoef_same cs 7 w

/-- The feedback constant has no bit below 12, so the low 12 bits are shifted and nothing else. -/
theorem setWidth_shiftBits (n : Nat) (r : BitVec 16) : (shiftBits n r).setWidth 12 = r.setWidth 12 <<< n := by
  have hone (r : BitVec 16) : (shiftBit r).setWidth 12 = r.setWidth 12 <<< 1 := by
    unfold shiftBit
    split <;> simp
  induction n generalizing r with
  | zero => exact (BitVec.shiftLeft_zero _).symm
  | succ n ih => rw [shiftBits, ih, hone, ← BitVec.shiftLeft_add, Nat.add_comm]

/-- A byte step leaves in the low 12 bits what 8 shifts leave of the register and the byte. -/
theorem setWidth_stepByte (r : BitVec 16) (b : Byte) :
    (stepByte r b).setWidth 12 = (r.setWidth 12 ^^^ b.setWidth 12) <<< 8 := by
  rw [stepByte, setWidth_shiftBits, BitVec.setWidth_xor, BitVec.setWidth_setWidth_of_le _ (by decide)]

/-- A word leaves its low nibble in the low 12 bits, and nothing of what came before. -/
theorem setWidth_stepWord (r : BitVec 16) (w : Coef) :
    (stepWord r w).setWidth 12 = (w.extractLsb' 0 4).setWidth 12 <<< 8 := by
  have hbefore (x : BitVec 12) : x <<< 8 <<< 8 = 0 := by
    rw [← BitVec.shiftLeft_add]
    exact BitVec.shiftLeft_eq_zero (by decide)
  have hnibble : (lowByte w).setWidth 12 <<< 8 = (w.extractLsb' 0 4).setWidth 12 <<< 8 := by
    apply BitVec.eq_of_getLsbD_eq
    intro k hk
    simp [lowByte, show k - 8 < 8 by omega, show k - 8 < 4 by omega]
  rw [stepWord, setWidth_stepByte, setWidth_stepByte, BitVec.shiftLeft_xor_distrib, hbefore, hnibble]
  exact BitVec.zero_xor

/-- Shifts that no 1 is driven out by are shifts without feedback. -/
theorem shiftBits_eq_shiftLeft (n : Nat) (r : BitVec 16) (h : r.toNat * 2 ^ n < 2 ^ 16) : shiftBits n r = r <<< n := by
  induction n generalizing r with
  | zero => exact (BitVec.shiftLeft_zero _).symm
  | succ n ih =>
    have hlt : r.toNat * 2 < 2 ^ 16 := (Nat.mul_le_mul_left _ (Nat.le_self_pow n.succ_ne_zero 2)).trans_lt h
    have hmsb : r.getLsbD 15 = false := by
      rw [BitVec.getLsbD, Nat.testBit_lt_two_pow (by omega)]
    have hnat : (r <<< 1).toNat = r.toNat * 2 := by
      rw [BitVec.toNat_shiftLeft, Nat.shiftLeft_eq, pow_one, Nat.mod_eq_of_lt hlt]
    rw [shiftBits, shiftBit, hmsb, if_neg Bool.false_ne_true, ih (r <<< 1) (by rw [hnat, mul_assoc, ← pow_succ']; exact h),
      ← BitVec.shiftLeft_add, Nat.add_comm]

/-- Into an empty register a byte step only shifts the byte in. -/
theorem stepByte_zero (b : Byte) : stepByte 0 b = b.setWidth 16 <<< 8 := by
  have hfits : (b.setWidth 16).toNat * 2 ^ 8 < 2 ^ 16 := by
    rw [BitVec.toNat_setWidth_of_le (by decide)]
    omega
  rw [stepByte, BitVec.ofNat_eq_ofNat, BitVec.zero_xor, shiftBits_eq_shiftLeft 8 _ hfits]

/-- A word is linear in the register and the word together. -/
theorem stepWord_xor (a b : BitVec 16) (v w : Coef) : stepWord (a ^^^ b) (v ^^^ w) = stepWord a v ^^^ stepWord b w := by
  simp only [stepWord, highByte, lowByte, BitVec.extractLsb'_xor, stepByte_xor]

@[simp] theorem getElem_xorCoeffs (a b : Coeffs) {i : Nat} (hi : i < 8) : (xorCoeffs a b)[i] = a[i] ^^^ b[i] :=
  Vector.getElem_zipWith hi

/-- Sets with the same words are the same. -/
theorem coeffs_ext {a b : Coeffs} (h : ∀ idx : BitVec 3, coefAt a idx = coefAt b idx) : a = b :=
  Vector.ext fun i hi => h (BitVec.ofNatLT i hi)

@[simp] theorem coefAt_zeros (idx : BitVec 3) : coefAt (Vector.replicate 8 0) idx = 0 :=
  Vector.getElem_replicate ..

theorem coefAt_xorCoeffs (a b : Coeffs) (idx : BitVec 3) : coefAt (xorCoeffs a b) idx = coefAt a idx ^^^ coefAt b idx :=
  getElem_xorCoeffs a b idx.isLt

/-- The seed is 0, so the register over the first seven words is linear. -/
theorem headRegister_xor (a b : Coeffs) : headRegister (xorCoeffs a b) = headRegister a ^^^ headRegister b := by
  have hseed : (0 : BitVec 16) = 0 ^^^ 0 := rfl
  simp only [headRegister, getElem_xorCoeffs]
  rw [hseed]
  simp only [stepWord_xor]
  rfl

theorem maskedWord7_xor (f : CrcField) (a b : Coeffs) :
    maskedWord7 f (xorCoeffs a b) = maskedWord7 f a ^^^ maskedWord7 f b := by
  apply BitVec.eq_of_getLsbD_eq
  intro k hk
  simp only [getLsbD_maskedWord7, getElem_xorCoeffs, BitVec.getLsbD_xor, Bool.and_xor_distrib_right]

/-- R69: the checksum is linear. -/
theorem crc4_xor (f : CrcField) (a b : Coeffs) : crc4 f (xorCoeffs a b) = crc4 f a ^^^ crc4 f b := by
  simp only [crc4, crcRegister_eq_stepWord, headRegister_xor, maskedWord7_xor, stepWord_xor, BitVec.extractLsb'_xor]

theorem embedded_xor (f : CrcField) (a b : Coeffs) : embedded f (xorCoeffs a b) = embedded f a ^^^ embedded f b := by
  simp only [embedded_eq_field, getElem_xorCoeffs, BitVec.setWidth_xor]

end Sys2Proof.Machine
end

section
/-! `CRCV` and the checksum by bits (41_checksum_validator.md R59 to R64, R69 and R70). -/

namespace Sys2Proof.Machine

/-- Settles O36: the low 8 bits are the low bits of a word shifted by 8. -/
theorem byteStepClearsLowByte : Obligations.ByteStepClearsLowByte := by
  intro r b
  calc (stepByte r b).extractLsb' 0 8
      = ((stepByte r b).setWidth 12).extractLsb' 0 8 := (BitVec.extractLsb'_setWidth_of_le (by decide)).symm
    _ = ((r.setWidth 12 ^^^ b.setWidth 12) <<< 8).extractLsb' 0 8 := by rw [setWidth_stepByte]
    _ = 0 := extractLsb'_shiftLeft_eq_zero _ (by decide)

/-- Settles O19: the precondition is `LOADED` = `0xFF`, and what is written is the effect of `CRCV`. -/
theorem crcvValidatesLoadedSet : Obligations.CrcvValidatesLoadedSet := by
  refine ⟨decode_eq_ok_iff_eq_encode.mpr rfl, fun s hl => ?refused, fun s hl => ?accepted⟩
  case refused =>
    have href : accepts .crcv s = false := beq_eq_false_iff_ne.mpr hl
    exact exec_of_refused href
  case accepted =>
    have hacc : accepts .crcv s = true := by simp [accepts, hl]
    rw [exec_of_accepts hacc, ← BitVec.setWidth_eq_extractLsb' (by decide)]
    rfl

/-- The checksum of the all-zero set is 0 (R70 a): it is its own exclusive-or with itself. -/
theorem crc4_zeros (f : CrcField) : crc4 f (Vector.replicate 8 0) = 0 := by
  have hself : xorCoeffs (Vector.replicate 8 0) (Vector.replicate 8 0) = Vector.replicate 8 0 :=
    Vector.ext fun i hi => by simp
  rw [← hself, crc4_xor, BitVec.xor_self]
  rfl

/-- Settles O41: both checksums of the all-zero set are 0; out of reset `LOADED` is not `0xFF`. -/
theorem allZeroSetPasses : Obligations.AllZeroSetPasses := by
  refine ⟨fun s hcoef hl => ?_, exec_of_refused rfl⟩
  have hacc : accepts .crcv s = true := by simp [accepts, hl]
  have hcalc : crc4 s.params.crcField s.coef = 0 := hcoef ▸ crc4_zeros _
  have hemb : embedded s.params.crcField s.coef = 0 := by simp [hcoef, embedded]
  exact ⟨effect .crcv s, exec_of_accepts hacc, by simp [effect, hcalc, hemb], hcalc, hemb⟩

/-- With `C[7][7:4]` = 0 the byte mask removes nothing more than the nibble mask (R62). -/
theorem maskedWord7_nibble_eq_byte {cs : Coeffs} (h : cs[7].extractLsb' 4 4 = 0) :
    maskedWord7 .nibble cs = maskedWord7 .byte cs := by
  apply BitVec.eq_of_getLsbD_eq
  intro k _
  rw [getLsbD_maskedWord7, getLsbD_maskedWord7]
  by_cases hdiffer : 4 ≤ k ∧ k < 8
  · have hbit : (cs[7].extractLsb' 4 4).getLsbD (k - 4) = false := by rw [h]; exact BitVec.getLsbD_zero
    rw [BitVec.getLsbD_extractLsb', decide_eq_true (by omega), Bool.true_and, Nat.add_sub_cancel' hdiffer.1] at hbit
    rw [hbit, Bool.false_and, Bool.false_and]
  · have hsame : fieldWidth .nibble ≤ k ↔ fieldWidth .byte ≤ k := by simp only [fieldWidth]; omega
    rw [decide_eq_decide.mpr hsame]

theorem embedded_nibble (cs : Coeffs) : embedded .nibble cs = (cs[7].extractLsb' 0 4).setWidth 8 := by
  rw [embedded_eq_field, fieldWidth, BitVec.setWidth_eq_extractLsb' (w := 4) (by decide)]

theorem embedded_byte (cs : Coeffs) : embedded .byte cs = cs[7].extractLsb' 0 8 := by
  rw [embedded_eq_field, fieldWidth, BitVec.setWidth_eq, BitVec.setWidth_eq_extractLsb' (by decide)]

/-- The low byte of word 7 is its bits 7:4 and its low nibble. -/
theorem lowByte_eq_append (w : Coef) : w.extractLsb' 0 8 = w.extractLsb' 4 4 ++ w.extractLsb' 0 4 :=
  (BitVec.extractLsb'_append_extractLsb'_eq_extractLsb' (start₁ := 0) (start₂ := 4) (len₁ := 4) (len₂ := 4) rfl).symm

/-- A checksum widened to the embedded one's width has a zero high nibble. -/
theorem setWidth_eight_eq_append (x : BitVec 4) : x.setWidth 8 = 0#4 ++ x :=
  BitVec.setWidth_eq_append (by decide)

/-- Settles O37: a byte field that equals a 4-bit checksum has a zero high nibble; where that nibble is 0 the masks differ in
nothing. -/
theorem checksumFieldMasks : Obligations.ChecksumFieldMasks := by
  refine fun cs => ⟨embedded_nibble cs, embedded_byte cs, fun hmatch => ?_, fun hzero => ⟨?_, ?_⟩⟩
  · have hhigh := congrArg (·.extractLsb' 4 4) hmatch
    simp only [embedded_byte, lowByte_eq_append, setWidth_eight_eq_append, BitVec.extractLsb'_append_eq_left] at hhigh
    exact hhigh.symm
  · exact crc4_eq_of_masked_eq rfl (maskedWord7_nibble_eq_byte hzero)
  · rw [embedded_nibble, embedded_byte, lowByte_eq_append, hzero, setWidth_eight_eq_append]
    rfl

/-! ### Single bits -/

/-- Flipping a bit is the exclusive-or with the set that has that one bit set. -/
theorem flipBit_eq_xorCoeffs (idx : BitVec 3) (k : Nat) (cs : Coeffs) :
    flipBit idx k cs = xorCoeffs cs (flipBit idx k (Vector.replicate 8 0)) := by
  refine coeffs_ext fun j => ?_
  rw [coefAt_xorCoeffs, flipBit, flipBit]
  by_cases hj : j = idx
  · rw [hj, coefAt_setCoef_same, coefAt_setCoef_same, coefAt_zeros, BitVec.ofNat_eq_ofNat, BitVec.zero_xor]
  · rw [coefAt_setCoef_other _ _ hj, coefAt_setCoef_other _ _ hj, coefAt_zeros, BitVec.ofNat_eq_ofNat, BitVec.xor_zero]

/-- R69: "each entry computed with rule R64 on the set that has that one bit set". -/
theorem crc4_flipBit_zeros (f : CrcField) (idx : BitVec 3) {k : Nat} (hk : k < 16) :
    crc4 f (flipBit idx k (Vector.replicate 8 0)) = crcEntry f idx.toNat k := by
  revert idx k
  cases f <;> decide +kernel

/-- Flipping a bit adds the bit's entry of the table. -/
theorem crc4_flipBit (f : CrcField) (idx : BitVec 3) {k : Nat} (hk : k < 16) (cs : Coeffs) :
    crc4 f (flipBit idx k cs) = crc4 f cs ^^^ crcEntry f idx.toNat k := by
  rw [flipBit_eq_xorCoeffs, crc4_xor, crc4_flipBit_zeros f idx hk]

/-- The entries that are 0 are those of the checksum field (R70 c). -/
theorem crcEntry_eq_zero_iff (f : CrcField) (idx : BitVec 3) {k : Nat} (hk : k < 16) :
    crcEntry f idx.toNat k = 0 ↔ inField f idx k = true := by
  revert idx k
  cases f <;> decide +kernel

/-- One bit alone is embedded exactly when it lies in the field. -/
theorem embedded_flipBit_zeros_eq_zero_iff (f : CrcField) (idx : BitVec 3) {k : Nat} (hk : k < 16) :
    embedded f (flipBit idx k (Vector.replicate 8 0)) = 0 ↔ inField f idx k = false := by
  revert idx k
  cases f <;> decide +kernel

/-- A flip keeps the computed checksum exactly inside the field. -/
theorem crc4_flipBit_eq_iff (f : CrcField) (idx : BitVec 3) {k : Nat} (hk : k < 16) (cs : Coeffs) :
    crc4 f (flipBit idx k cs) = crc4 f cs ↔ inField f idx k = true := by
  rw [crc4_flipBit f idx hk, xor_left_eq_self_iff, crcEntry_eq_zero_iff f idx hk]

/-- A flip keeps the embedded checksum exactly outside the field. -/
theorem embedded_flipBit_eq_iff (f : CrcField) (idx : BitVec 3) {k : Nat} (hk : k < 16) (cs : Coeffs) :
    embedded f (flipBit idx k cs) = embedded f cs ↔ inField f idx k = false := by
  rw [flipBit_eq_xorCoeffs, embedded_xor, xor_left_eq_self_iff, embedded_flipBit_zeros_eq_zero_iff f idx hk]

/-- Settles O40: each checksum stays exactly where the bit's own contribution to it is 0. -/
theorem singleBitErrorsDetected : Obligations.SingleBitErrorsDetected := by
  intro f cs idx k hk
  split
  case isTrue hin =>
    refine ⟨(crc4_flipBit_eq_iff f idx hk cs).mpr hin, fun h => ?_⟩
    exact absurd hin (Bool.eq_false_iff.mp ((embedded_flipBit_eq_iff f idx hk cs).mp h))
  case isFalse hout =>
    exact ⟨fun h => hout ((crc4_flipBit_eq_iff f idx hk cs).mp h),
      (embedded_flipBit_eq_iff f idx hk cs).mpr (Bool.eq_false_iff.mpr hout)⟩

/-! ### The table -/

/-- The lowest bit not yet taken joins the bits below it. -/
theorem setWidth_setWidth_succ (w : Coef) (n : Nat) : (w.setWidth (n + 1)).setWidth 16 =
    if w.getLsbD n then (w.setWidth n).setWidth 16 ^^^ (1#16 <<< n) else (w.setWidth n).setWidth 16 := by
  apply BitVec.eq_of_getLsbD_eq
  intro k hk
  rcases lt_trichotomy k n with hlt | rfl | hgt
  · split <;> simp [hk, hlt, hlt.trans (Nat.lt_succ_self n)]
  · split <;> simp_all
  · split <;> simp [hk, hgt, hgt.not_gt, show k - n ≠ 0 by omega]

/-- A bit of a written register is flipped in the word written. -/
theorem flipBit_setCoef (idx : BitVec 3) (k : Nat) (cs : Coeffs) (w : Coef) :
    flipBit idx k (setCoef cs idx w) = setCoef cs idx (w ^^^ (1#16 <<< k)) := by
  rw [flipBit, coefAt_setCoef_same]
  exact Vector.set_set ..

/-- Flipping in a register the bits that are 1 in the low `n` bits of a word is the exclusive-or with those bits. -/
theorem foldl_flipBit_word (idx : BitVec 3) (w : Coef) (cs : Coeffs) (n : Nat) :
    (List.range n).foldl (fun acc k => if w.getLsbD k then flipBit idx k acc else acc) cs =
      setCoef cs idx (coefAt cs idx ^^^ (w.setWidth n).setWidth 16) := by
  induction n with
  | zero =>
    simp [BitVec.of_length_zero, setCoef, coefAt]
  | succ n ih =>
    rw [List.range_succ, List.foldl_append, ih, List.foldl_cons, List.foldl_nil, setWidth_setWidth_succ]
    split
    · rw [flipBit_setCoef, BitVec.xor_assoc]
    · rfl

/-- Filling the all-zero set with the words of a set, the first `n` are filled. -/
theorem coefAt_foldl_fill (cs : Coeffs) (idx : BitVec 3) {n : Nat} (hn : n ≤ 8) :
    coefAt ((List.range n).foldl (fun acc j => setCoef acc (BitVec.ofNat 3 j)
      (coefAt acc (BitVec.ofNat 3 j) ^^^ coefAt cs (BitVec.ofNat 3 j))) (Vector.replicate 8 0)) idx =
      if idx.toNat < n then coefAt cs idx else 0 := by
  induction n with
  | zero => exact coefAt_zeros idx
  | succ n ih =>
    have hidx : (BitVec.ofNat 3 n).toNat = n := Nat.mod_eq_of_lt hn
    rw [List.range_succ, List.foldl_append, List.foldl_cons, List.foldl_nil]
    by_cases heq : idx = BitVec.ofNat 3 n
    · rw [← heq] at hidx ⊢
      rw [coefAt_setCoef_same, ih (by omega), if_neg (by omega), if_pos (by omega)]
      exact BitVec.zero_xor
    · have hne : idx.toNat ≠ n := fun h => heq (BitVec.eq_of_toNat_eq (h.trans hidx.symm))
      have hlt : idx.toNat < n ↔ idx.toNat < n + 1 := by omega
      rw [coefAt_setCoef_other _ _ heq, ih (by omega), if_congr hlt rfl rfl]

/-- The all-zero set becomes any set by flipping the bits that are 1. -/
theorem foldl_flipBit_zeros (cs : Coeffs) :
    (List.range 8).foldl (fun acc i => (List.range 16).foldl (fun acc k =>
      if (coefAt cs (BitVec.ofNat 3 i)).getLsbD k then flipBit (BitVec.ofNat 3 i) k acc else acc) acc)
      (Vector.replicate 8 0) = cs := by
  simp only [foldl_flipBit_word, BitVec.setWidth_eq]
  exact coeffs_ext fun idx => (coefAt_foldl_fill cs idx le_rfl).trans (if_pos idx.isLt)

/-- R69: the checksum of any set is the exclusive-or of the table's entries for the bits that are 1. -/
theorem crc4_eq_crcByTable (f : CrcField) (cs : Coeffs) : crc4 f cs = crcByTable f cs := by
  rw [← congrArg (crc4 f) (foldl_flipBit_zeros cs), crcByTable]
  refine List.foldl_rel (r := fun set acc => crc4 f set = acc) (crc4_zeros f) fun i hi set acc hacc => ?_
  refine List.foldl_rel (r := fun set acc => crc4 f set = acc) hacc fun k hk set acc hacc => ?_
  have hidx : (BitVec.ofNat 3 i).toNat = i := Nat.mod_eq_of_lt (List.mem_range.mp hi)
  split
  · rw [crc4_flipBit f _ (List.mem_range.mp hk), hacc, hidx]
  · exact hacc

/-- Settles O38: linearity by `crc4_xor`, the table bit by bit by `crc4_eq_crcByTable`, the period read off the table. -/
theorem checksumIsLinear : Obligations.ChecksumIsLinear := by
  refine fun f => ⟨crc4_xor f, crc4_eq_crcByTable f, fun n hn => ?_⟩
  have hperiod : ∀ n < 109,
      crcEntry .nibble (n / 16) (15 - n % 16) = crcEntry .nibble ((n + 15) / 16) (15 - (n + 15) % 16) := by decide +kernel
  exact hperiod n (by omega)

end Sys2Proof.Machine
end

section
/-! The closed form of R68: the register holds the remainder of the message, shifted by 8, modulo `x^16 + x^13 + x^12`. Quotients
and dividends are held in 144 bits, which the 128 message bits and the 8 of the shift do not exceed. -/

namespace Sys2Proof.Machine

/-- A polynomial times the register's modulus `x^16 + x^13 + x^12 = x^12 * g(x)` (R68). -/
def timesModulus (q : BitVec 144) : BitVec 144 := (q <<< 4 ^^^ q <<< 1 ^^^ q) <<< 12

/-- Four exclusive-ors, the middle two exchanged. -/
theorem xor_xor_exchange {n : Nat} (a b c d : BitVec n) : a ^^^ b ^^^ (c ^^^ d) = a ^^^ c ^^^ (b ^^^ d) := by
  ac_rfl

theorem timesModulus_xor (p q : BitVec 144) : timesModulus (p ^^^ q) = timesModulus p ^^^ timesModulus q := by
  rw [timesModulus, timesModulus, timesModulus, ← BitVec.shiftLeft_xor_distrib, xor_xor_exchange (p <<< 4 ^^^ p <<< 1),
    xor_xor_exchange (p <<< 4), ← BitVec.shiftLeft_xor_distrib, ← BitVec.shiftLeft_xor_distrib]

theorem timesModulus_shiftLeft (q : BitVec 144) (n : Nat) : timesModulus (q <<< n) = timesModulus q <<< n := by
  simp only [timesModulus, BitVec.shiftLeft_xor_distrib, ← BitVec.shiftLeft_add, Nat.add_comm]

/-- A dividend leaves the register as its remainder, by a quotient of fewer than `n` bits. -/
def LeavesRegister (n : Nat) (dividend : BitVec 144) (r : BitVec 16) : Prop :=
  ∃ q : BitVec 144, q.toNat < 2 ^ n ∧ dividend = timesModulus q ^^^ r.setWidth 144

/-- The bit that a shift drives out of the register, where the register is held in more bits. -/
theorem setWidth_shiftLeft_one (r : BitVec 16) : r.setWidth 144 <<< 1 =
    (if r.getLsbD 15 then BitVec.twoPow 144 16 else 0) ^^^ (r <<< 1).setWidth 144 := by
  apply BitVec.eq_of_getLsbD_eq
  intro k hk
  rcases lt_trichotomy k 16 with hlt | rfl | hgt
  · have hin : r.getLsbD (k - 1) = r[k - 1] := BitVec.getLsbD_eq_getElem (by omega)
    split <;> simp [hk, hlt, hlt.ne, hin]
  · split <;> simp_all
  · have hout : r.getLsbD (k - 1) = false := BitVec.getLsbD_of_ge _ _ (by omega)
    split <;> simp [hk, hout, hgt.not_gt, hgt.ne']

/-- One shift step is multiplication by `x`, reduced by the modulus if a 1 is driven out (R68). -/
theorem setWidth_shiftLeft_one_eq_shiftBit (r : BitVec 16) : r.setWidth 144 <<< 1 =
    timesModulus ((BitVec.ofBool (r.getLsbD 15)).setWidth 144) ^^^ (shiftBit r).setWidth 144 := by
  rw [setWidth_shiftLeft_one, shiftBit]
  cases r.getLsbD 15 with
  | false => rfl
  | true =>
    have hmodulus : timesModulus ((BitVec.ofBool true).setWidth 144) =
        BitVec.twoPow 144 16 ^^^ (0x3000#16).setWidth 144 := by decide
    rw [hmodulus, if_pos rfl, if_pos rfl, BitVec.setWidth_xor, xor_xor_exchange, BitVec.ofNat_eq_ofNat,
      BitVec.xor_self, BitVec.xor_zero]

/-- A shift of the register multiplies the dividend by `x`; the bit driven out is the next bit of the quotient. -/
theorem LeavesRegister.shiftBit {n : Nat} {d : BitVec 144} {r : BitVec 16} (h : LeavesRegister n d r) :
    LeavesRegister (n + 1) (d <<< 1) (shiftBit r) := by
  obtain ⟨q, hq, rfl⟩ := h
  refine ⟨q <<< 1 ^^^ (BitVec.ofBool (r.getLsbD 15)).setWidth 144, ?_, ?_⟩
  · rw [BitVec.toNat_xor]
    apply Nat.xor_lt_two_pow
    · rw [BitVec.toNat_shiftLeft, Nat.shiftLeft_eq, pow_succ]
      omega
    · rw [BitVec.toNat_setWidth_of_le (by decide), BitVec.toNat_ofBool]
      exact (Bool.toNat_lt _).trans_le (Nat.pow_le_pow_right two_pos (Nat.le_add_left 1 n))
  · rw [BitVec.shiftLeft_xor_distrib, setWidth_shiftLeft_one_eq_shiftBit, timesModulus_xor, timesModulus_shiftLeft,
      BitVec.xor_assoc]

/-- Any number of shifts, a quotient bit each. -/
theorem LeavesRegister.shiftBits {n : Nat} {d : BitVec 144} {r : BitVec 16} (h : LeavesRegister n d r) (k : Nat) :
    LeavesRegister (n + k) (d <<< k) (shiftBits k r) := by
  induction k generalizing n d r with
  | zero => rwa [BitVec.shiftLeft_zero]
  | succ k ih =>
    have hshifted := ih h.shiftBit
    rwa [← BitVec.shiftLeft_add, Nat.add_assoc, Nat.add_comm 1] at hshifted

/-- A message byte joins the message and enters the register. -/
theorem LeavesRegister.stepByte {n : Nat} {m : BitVec 144} {r : BitVec 16} (h : LeavesRegister n (m <<< 8) r) (b : Byte) :
    LeavesRegister (n + 8) ((m <<< 8 ^^^ b.setWidth 144) <<< 8) (stepByte r b) := by
  refine LeavesRegister.shiftBits ?_ 8
  obtain ⟨q, hq, hm⟩ := h
  refine ⟨q, hq, ?_⟩
  rw [hm, BitVec.setWidth_xor, BitVec.xor_assoc, BitVec.setWidth_setWidth (by decide)]

/-- A word after a message, both held in more bits. -/
theorem setWidth_append_eq_xor {v w : Nat} (x : BitVec v) (y : BitVec w) (n : Nat) :
    (x ++ y).setWidth n = x.setWidth n <<< w ^^^ y.setWidth n := by
  apply BitVec.eq_of_getLsbD_eq
  intro k hk
  simp only [BitVec.getLsbD_setWidth, BitVec.getLsbD_append, BitVec.getLsbD_xor, BitVec.getLsbD_shiftLeft, decide_eq_true hk,
    Bool.true_and]
  by_cases hlow : k < w
  · simp [hlow]
  · simp [hlow, show k - w < n by omega, BitVec.getLsbD_of_ge y k (not_lt.mp hlow)]

/-- A word is its two bytes, the high one first (R36). -/
theorem highByte_append_lowByte (w : Coef) : highByte w ++ lowByte w = w := by
  rw [highByte, lowByte, BitVec.extractLsb'_append_extractLsb'_eq_extractLsb' (start₁ := 0) (len₁ := 8) rfl,
    BitVec.extractLsb'_eq_self]

/-- A word held in more bits, from its bytes. -/
theorem setWidth_word_eq_bytes (w : Coef) : w.setWidth 144 = (highByte w).setWidth 144 <<< 8 ^^^ (lowByte w).setWidth 144 := by
  rw [← setWidth_append_eq_xor, highByte_append_lowByte]

/-- A message word joins the message and enters the register. -/
theorem LeavesRegister.stepWord {n v : Nat} {m : BitVec v} {r : BitVec 16} (h : LeavesRegister n (m.setWidth 144 <<< 8) r)
    (w : Coef) : LeavesRegister (n + 16) ((m ++ w).setWidth 144 <<< 8) (stepWord r w) := by
  have hmessage : (m ++ w).setWidth 144 =
      (m.setWidth 144 <<< 8 ^^^ (highByte w).setWidth 144) <<< 8 ^^^ (lowByte w).setWidth 144 := by
    rw [setWidth_append_eq_xor, setWidth_word_eq_bytes w, BitVec.shiftLeft_xor_distrib, ← BitVec.shiftLeft_add,
      BitVec.xor_assoc]
  rw [hmessage]
  exact (h.stepByte (highByte w)).stepByte (lowByte w)

/-- The first byte shifts in without feedback, the first word's quotient has 8 bits. -/
theorem leavesRegister_first_word (w : Coef) : LeavesRegister 8 (w.setWidth 144 <<< 8) (stepWord 0 w) := by
  have hfirst : LeavesRegister 0 ((highByte w).setWidth 144 <<< 8) (stepByte 0 (highByte w)) := by
    refine ⟨0, Nat.one_pos, ?_⟩
    have hzero : timesModulus 0 = 0 := by decide
    have hshift : ((highByte w).setWidth 16 <<< 8).setWidth 144 = (highByte w).setWidth 144 <<< 8 := by
      apply BitVec.eq_of_getLsbD_eq
      intro k hk
      by_cases hin : k < 16
      · simp [hk, hin]
      · simp [hk, hin, BitVec.getLsbD_of_ge (highByte w) (k - 8) (by omega)]
    rw [stepByte_zero, hshift, hzero, BitVec.ofNat_eq_ofNat, BitVec.zero_xor]
  rw [setWidth_word_eq_bytes]
  exact hfirst.stepByte (lowByte w)

/-- R68: "after the last byte `n_rem = M * x^8 mod x^12 * g(x)`". -/
theorem leavesRegister_message (f : CrcField) (cs : Coeffs) :
    LeavesRegister 120 ((message128 f cs).setWidth 144 <<< 8) (crcRegister f cs) :=
  (leavesRegister_first_word cs[0]).stepWord cs[1] |>.stepWord cs[2] |>.stepWord cs[3] |>.stepWord cs[4] |>.stepWord cs[5]
    |>.stepWord cs[6] |>.stepWord (maskedWord7 f cs)

/-- Above the 12 low bits the modulus is `g(x)`. -/
theorem extractLsb'_timesModulus (q : BitVec 144) : (timesModulus q).extractLsb' 12 128 = timesG (q.setWidth 128) := by
  rw [timesModulus, extractLsb'_shiftLeft_of_le _ le_rfl (by decide), ← BitVec.setWidth_eq_extractLsb' (by decide)]
  simp only [timesG, BitVec.setWidth_xor, BitVec.setWidth_shiftLeft_of_le (show 128 ≤ 144 by decide)]

/-- Above the 12 low bits the shifted message is its upper 124 bits. -/
theorem extractLsb'_shifted_message (m : BitVec 128) : (m.setWidth 144 <<< 8).extractLsb' 12 128 = m >>> 4 := by
  rw [extractLsb'_shiftLeft_of_le _ (by decide) (by decide)]
  apply BitVec.eq_of_getLsbD_eq
  intro k hk
  simp [hk, show 4 + k < 144 by omega]

/-- Above the 12 low bits the register is its top nibble. -/
theorem extractLsb'_register (r : BitVec 16) : (r.setWidth 144).extractLsb' 12 128 = (r.extractLsb' 12 4).setWidth 128 := by
  apply BitVec.eq_of_getLsbD_eq
  intro k hk
  by_cases hin : k < 4
  · simp [hk, hin, show 12 + k < 144 by omega]
  · simp [hin, BitVec.getLsbD_of_ge r (12 + k) (by omega)]

/-- R68: the checksum is the remainder of the upper 124 bits of the message modulo `g(x)`. -/
theorem message_eq_quotient_xor_crc4 (f : CrcField) (cs : Coeffs) : ∃ q : BitVec 128, q.toNat < 2 ^ 120 ∧
    message128 f cs >>> 4 = timesG q ^^^ (crc4 f cs).setWidth 128 := by
  obtain ⟨q, hq, hm⟩ := leavesRegister_message f cs
  refine ⟨q.setWidth 128, ((BitVec.toNat_setWidth ..).trans_le (Nat.mod_le ..)).trans_lt hq, ?_⟩
  calc message128 f cs >>> 4
      = ((message128 f cs).setWidth 144 <<< 8).extractLsb' 12 128 := (extractLsb'_shifted_message _).symm
    _ = (timesModulus q ^^^ (crcRegister f cs).setWidth 144).extractLsb' 12 128 := by rw [hm]
    _ = timesG (q.setWidth 128) ^^^ (crc4 f cs).setWidth 128 := by
      rw [BitVec.extractLsb'_xor, extractLsb'_timesModulus, extractLsb'_register, crc4]

/-! ### The low nibble of word 7 -/

/-- A low nibble alone is shifted by 8 and does not reach the top nibble. -/
theorem topNibble_stepWord_nibble (n : BitVec 4) : (stepWord 0 (n.setWidth 16)).extractLsb' 12 4 = 0 := by
  have hhigh : highByte (n.setWidth 16) = 0 :=
    (BitVec.extractLsb'_setWidth_of_le (by decide)).trans (extractLsb'_eq_zero_of_le n 8 (by decide))
  have hlow : (lowByte (n.setWidth 16)).extractLsb' 4 4 = 0 := by
    rw [lowByte, BitVec.extractLsb'_extractLsb'_of_le (by decide), BitVec.extractLsb'_setWidth_of_le (by decide)]
    exact extractLsb'_eq_zero_of_le n 4 le_rfl
  have hempty : stepByte 0 0 = 0 := stepByte_zero 0
  rw [stepWord, hhigh, hempty, stepByte_zero, extractLsb'_shiftLeft_of_le _ (by decide) (by decide),
    BitVec.extractLsb'_setWidth_of_le (by decide), hlow]

/-- A low nibble changed in a word changes nothing of the register's top nibble. -/
theorem topNibble_stepWord_xor_nibble (r : BitVec 16) (w : Coef) (n : BitVec 4) :
    (stepWord r (w ^^^ n.setWidth 16)).extractLsb' 12 4 = (stepWord r w).extractLsb' 12 4 := by
  have hsplit : stepWord r (w ^^^ n.setWidth 16) = stepWord r w ^^^ stepWord 0 (n.setWidth 16) := by
    rw [← stepWord_xor, BitVec.ofNat_eq_ofNat, BitVec.xor_zero]
  rw [hsplit, BitVec.extractLsb'_xor, topNibble_stepWord_nibble, BitVec.ofNat_eq_ofNat, BitVec.xor_zero]

/-- Without mask the low nibble of word 7 never influences the top nibble. -/
theorem topNibble_unmasked_xor_nibble (cs : Coeffs) (n : BitVec 4) :
    (unmaskedRegister (setCoef cs 7 (cs[7] ^^^ n.setWidth 16))).extractLsb' 12 4 = (unmaskedRegister cs).extractLsb' 12 4 := by
  rw [unmaskedRegister_eq_stepWord, unmaskedRegister_eq_stepWord, headRegister_setCoef_seven, getElem_setCoef_seven,
    topNibble_stepWord_xor_nibble]

/-- The nibble mask removes the low nibble. -/
theorem maskedWord7_nibble (cs : Coeffs) : maskedWord7 .nibble cs = cs[7] ^^^ (cs[7].extractLsb' 0 4).setWidth 16 := by
  apply BitVec.eq_of_getLsbD_eq
  intro k hk
  rw [getLsbD_maskedWord7, fieldWidth]
  by_cases hin : k < 4
  · simp [hk, hin]
  · simp [not_lt.mp hin]

/-- The byte mask removes bits 7:4, and the low nibble of what is left. -/
theorem maskedWord7_byte (cs : Coeffs) :
    maskedWord7 .byte cs = (cs[7] &&& (0xFF0F : Coef)) ^^^ (cs[7].extractLsb' 0 4).setWidth 16 := by
  have hconst : ∀ k < 16, (0xFF0F : Coef).getLsbD k = decide (k < 4 ∨ 8 ≤ k) := by decide
  apply BitVec.eq_of_getLsbD_eq
  intro k hk
  rw [getLsbD_maskedWord7, fieldWidth, BitVec.getLsbD_xor, BitVec.getLsbD_and, hconst k hk]
  by_cases hin : k < 4
  · simp [hk, hin, show ¬8 ≤ k by omega]
  · simp [hin]

/-- No mask lets the low nibble of word 7 into the message. -/
theorem maskedWord7_xor_nibble (f : CrcField) (cs : Coeffs) (n : BitVec 4) :
    maskedWord7 f (setCoef cs 7 (cs[7] ^^^ n.setWidth 16)) = maskedWord7 f cs := by
  apply BitVec.eq_of_getLsbD_eq
  intro k hk
  rw [getLsbD_maskedWord7, getLsbD_maskedWord7, getElem_setCoef_seven]
  by_cases hout : fieldWidth f ≤ k
  · have hnibble : 4 ≤ k := le_trans (by cases f <;> decide) hout
    simp [BitVec.getLsbD_of_ge n k hnibble]
  · simp [hout]

/-- Settles O39: the quotient is collected by `leavesRegister_message`; each mask differs from no masking in bits that are
removed or that the top nibble does not see. -/
theorem checksumClosedForm : Obligations.ChecksumClosedForm := by
  refine ⟨message_eq_quotient_xor_crc4, fun f cs n => ?changed, fun cs =>
    ⟨?nibble, ?byte, topNibble_unmasked_xor_nibble cs, ?low⟩⟩
  case changed => exact crc4_eq_of_masked_eq (headRegister_setCoef_seven ..) (maskedWord7_xor_nibble f cs n)
  case nibble =>
    rw [crc4, crcRegister_eq_stepWord, maskedWord7_nibble, topNibble_stepWord_xor_nibble, unmaskedRegister_eq_stepWord]
  case byte =>
    rw [crc4, crcRegister_eq_stepWord, maskedWord7_byte, topNibble_stepWord_xor_nibble, unmaskedRegister_eq_stepWord,
      headRegister_setCoef_seven, getElem_setCoef_seven]
  case low =>
    rw [unmaskedRegister_eq_stepWord, ← setWidth_stepWord, BitVec.setWidth_eq_extractLsb' (by decide)]

end Sys2Proof.Machine
end

section
/-! The compensation step by step (42_compensation_engine.md section 3): the branch and its corrections (R76 to R80), the bounds of
every step (R90), and the widths they leave room in (R91). -/

namespace Sys2Proof.Machine

/-! ### The branch -/

@[simp] theorem compLow_iff (temp1 : Int) : compLow temp1 = true ↔ temp1 < 2000 := decide_eq_true_iff

/-- With `VLT_EN` = 0 there is no very-low-temperature term (R82). -/
@[simp] theorem compVlt_false (temp1 : Int) : compVlt false temp1 = 0 := rfl

/-- The quotient of a non-negative numerator is the floor. -/
theorem tdiv_of_nonneg {n : Int} (d : Int) (h : 0 ≤ n) : tdiv n d = n / d := if_pos h

/-- The numerators of R77 to R79 are not negative. -/
theorem mul_sq_nonneg {k : Int} (hk : 0 ≤ k) (x : Int) : 0 ≤ k * (x * x) := mul_nonneg hk (mul_self_nonneg x)

theorem compT2_of_low (dT : Int) {temp1 : Int} (h : temp1 < 2000) : compT2 dT temp1 = 3 * (dT * dT) / 8589934592 := by
  rw [compT2, if_pos ((compLow_iff _).mpr h), tdiv_of_nonneg _ (mul_sq_nonneg (by decide) dT)]

theorem compOff2_of_low {temp1 : Int} (h : temp1 < 2000) :
    compOff2 temp1 = 3 * ((temp1 - 2000) * (temp1 - 2000)) / 8 := by
  rw [compOff2, if_pos ((compLow_iff _).mpr h), tdiv_of_nonneg _ (mul_sq_nonneg (by decide) _)]

theorem compSens2_of_low {temp1 : Int} (h : temp1 < 2000) :
    compSens2 false temp1 = 7 * ((temp1 - 2000) * (temp1 - 2000)) / 8 := by
  rw [compSens2, if_pos ((compLow_iff _).mpr h), compVlt_false, add_zero, tdiv_of_nonneg _ (mul_sq_nonneg (by decide) _)]

theorem compLow_eq_false {temp1 : Int} (h : 2000 ≤ temp1) : compLow temp1 = false := decide_eq_false h.not_gt

theorem compT2_of_high (dT : Int) {temp1 : Int} (h : 2000 ≤ temp1) : compT2 dT temp1 = 0 := by
  rw [compT2, compLow_eq_false h, if_neg Bool.false_ne_true]

theorem compOff2_of_high {temp1 : Int} (h : 2000 ≤ temp1) : compOff2 temp1 = 0 := by
  rw [compOff2, compLow_eq_false h, if_neg Bool.false_ne_true]

theorem compSens2_of_high (v : Bool) {temp1 : Int} (h : 2000 ≤ temp1) : compSens2 v temp1 = 0 := by
  rw [compSens2, compLow_eq_false h, if_neg Bool.false_ne_true]

/-- R76: the quotient `n1 / 2^23` is negative only from `-2^23` on, as it rounds toward zero. -/
theorem compTemp1_lt_iff (n1 : Int) : compTemp1 n1 < 2000 ↔ n1 ≤ -8388608 := by
  unfold compTemp1 tdiv
  split <;> omega

/-- R76: the numerator is negative only with a negative `dT` and a non-zero `C[6]`. -/
theorem neg_and_pos_of_compN1_neg {dT : Int} {cs : Coeffs} (h : compN1 dT cs < 0) : dT < 0 ∧ 0 < uint cs[6] := by
  rcases mul_neg_iff.mp h with ⟨-, hneg⟩ | hsigns
  · exact absurd hneg (uint_bounds cs[6]).1.not_gt
  · exact hsigns

/-- R76: what the low branch needs of the operands. -/
theorem neg_and_pos_of_low {dT : Int} {cs : Coeffs} (h : compTemp1 (compN1 dT cs) < 2000) : dT < 0 ∧ 0 < uint cs[6] :=
  neg_and_pos_of_compN1_neg (((compTemp1_lt_iff _).mp h).trans_lt (by decide))

/-- Settles O44, by the branch on `n1`, the sign of its factors, and the corrections in either branch. -/
theorem lowBranchCondition : Obligations.LowBranchCondition := by
  intro d1 d2 cs c
  refine ⟨compTemp1_lt_iff c.n1, fun hlow => ?signs, fun hlow => ?floors,
    fun hhigh => ⟨compT2_of_high c.dT hhigh, compOff2_of_high hhigh, compSens2_of_high false hhigh⟩⟩
  case signs =>
    obtain ⟨hneg, hpos⟩ := neg_and_pos_of_low (dT := c.dT) hlow
    exact ⟨hneg, Int.natCast_pos.mp hpos⟩
  case floors =>
    rw [sq]
    exact ⟨compT2_of_low c.dT hlow, compOff2_of_low hlow, compSens2_of_low hlow⟩

/-- Settles O43: the steps put together, each quotient core's and each square a product. -/
theorem compIsTheListedFormula : Obligations.CompIsTheListedFormula := by
  intro d1 d2 cs
  simp only [comp, compDT, compN1, compTemp1, compT2, compOff2, compSens2, compOff1, compSens1, compQ1, compP, uint,
    tdiv_eq_int_tdiv, sq, compLow_iff, compVlt_false, add_zero, Nat.cast_ofNat, and_self]

/-! ### Bounds (R90) -/

/-- A quotient lies between the quotients of its numerator's bounds, given by value. -/
theorem tdiv_between {n d lo hi qlo qhi : Int} (h : lo ≤ n ∧ n ≤ hi) (hd : 0 < d) (hqlo : tdiv lo d = qlo)
    (hqhi : tdiv hi d = qhi) : qlo ≤ tdiv n d ∧ tdiv n d ≤ qhi :=
  hqlo ▸ hqhi ▸ tdiv_bounds hd h

/-- The square of a value that is not positive lies between the squares of its bounds, the ends exchanged. -/
theorem mul_self_bounds_of_nonpos {x lo hi : Int} (h : lo ≤ x ∧ x ≤ hi) (hhi : hi ≤ 0) :
    hi * hi ≤ x * x ∧ x * x ≤ lo * lo :=
  have hx := h.2.trans hhi
  ⟨mul_le_mul_of_nonpos_of_nonpos h.2 h.2 hx hhi, mul_le_mul_of_nonpos_of_nonpos h.1 h.1 (h.1.trans hx) hx⟩

theorem compDT_bounds (d2 : RawCode) (cs : Coeffs) : -16776960 ≤ compDT d2 cs ∧ compDT d2 cs ≤ 16777215 := by
  have hd := uint_bounds d2
  have hc := uint_bounds cs[5]
  unfold compDT
  omega

/-- `C[3] dT`, `C[4] dT` and `C[6] dT`. -/
theorem coef_mul_bounds (w : Coef) {dT : Int} (h : -16776960 ≤ dT ∧ dT ≤ 16777215) :
    -1099478073600 ≤ uint w * dT ∧ uint w * dT ≤ 1099494785025 :=
  mul_bounds (uint_bounds w) h (by decide) (by decide)

theorem compTemp1_bounds {n1 : Int} (h : -1099478073600 ≤ n1 ∧ n1 ≤ 1099494785025) :
    -129068 ≤ compTemp1 n1 ∧ compTemp1 n1 ≤ 133069 := by
  have hq : -131068 ≤ tdiv n1 8388608 ∧ tdiv n1 8388608 ≤ 131069 := tdiv_between h (by decide) (by decide) (by decide)
  unfold compTemp1
  omega

/-- `x^2` in the low branch (R78). -/
theorem low_square_bounds {temp1 : Int} (h : -129068 ≤ temp1) (hlow : temp1 < 2000) :
    1 ≤ (temp1 - 2000) * (temp1 - 2000) ∧ (temp1 - 2000) * (temp1 - 2000) ≤ 17178820624 := by
  have hx : -131068 ≤ temp1 - 2000 ∧ temp1 - 2000 ≤ -1 := by omega
  exact mul_self_bounds_of_nonpos hx (by decide)

/-- `dT^2` in the low branch (R77). -/
theorem low_dT_square_bounds {dT : Int} (h : -16776960 ≤ dT) (hneg : dT < 0) :
    0 ≤ dT * dT ∧ dT * dT ≤ 281466386841600 :=
  mul_self_bounds_of_nonpos ⟨h, hneg.le⟩ le_rfl

theorem compT2_bounds {dT temp1 : Int} (h : -16776960 ≤ dT) (hneg : temp1 < 2000 → dT < 0) :
    0 ≤ compT2 dT temp1 ∧ compT2 dT temp1 ≤ 98301 := by
  rcases lt_or_ge temp1 2000 with hlow | hhigh
  · have hsq := low_dT_square_bounds h (hneg hlow)
    rw [compT2_of_low dT hlow]
    omega
  · rw [compT2_of_high dT hhigh]
    decide

theorem compOff2_bounds {temp1 : Int} (h : -129068 ≤ temp1) : 0 ≤ compOff2 temp1 ∧ compOff2 temp1 ≤ 6442057734 := by
  rcases lt_or_ge temp1 2000 with hlow | hhigh
  · have hsq := low_square_bounds h hlow
    rw [compOff2_of_low hlow]
    omega
  · rw [compOff2_of_high hhigh]
    decide

theorem compSens2_bounds {temp1 : Int} (h : -129068 ≤ temp1) :
    0 ≤ compSens2 false temp1 ∧ compSens2 false temp1 ≤ 15031468046 := by
  rcases lt_or_ge temp1 2000 with hlow | hhigh
  · have hsq := low_square_bounds h hlow
    rw [compSens2_of_low hlow]
    omega
  · rw [compSens2_of_high false hhigh]
    decide

theorem compOff1_bounds {dT : Int} (cs : Coeffs) (h : -16776960 ≤ dT ∧ dT ≤ 16777215) :
    -34358689800 ≤ compOff1 dT cs ∧ compOff1 dT cs ≤ 51538819072 := by
  have hc := uint_bounds cs[2]
  have hq : -34358689800 ≤ tdiv (uint cs[4] * dT) 32 ∧ tdiv (uint cs[4] * dT) 32 ≤ 34359212032 :=
    tdiv_between (coef_mul_bounds cs[4] h) (by decide) (by decide) (by decide)
  unfold compOff1
  omega

theorem compSens1_bounds {dT : Int} (cs : Coeffs) (h : -16776960 ≤ dT ∧ dT ≤ 16777215) :
    -8589672450 ≤ compSens1 dT cs ∧ compSens1 dT cs ≤ 17179606528 := by
  have hc := uint_bounds cs[1]
  have hq : -8589672450 ≤ tdiv (uint cs[3] * dT) 128 ∧ tdiv (uint cs[3] * dT) 128 ≤ 8589803008 :=
    tdiv_between (coef_mul_bounds cs[3] h) (by decide) (by decide) (by decide)
  unfold compSens1
  omega

/-- The rows of R90 that `comp` names, at `VLT_EN` = 0. -/
structure WithinTable (t : CompTrace) : Prop where
  dT : -16776960 ≤ t.dT ∧ t.dT ≤ 16777215
  n1 : -1099478073600 ≤ t.n1 ∧ t.n1 ≤ 1099494785025
  temp1 : -129068 ≤ t.temp1 ∧ t.temp1 ≤ 133069
  t2 : 0 ≤ t.t2 ∧ t.t2 ≤ 98301
  off2 : 0 ≤ t.off2 ∧ t.off2 ≤ 6442057734
  sens2 : 0 ≤ t.sens2 ∧ t.sens2 ≤ 15031468046
  off1 : -34358689800 ≤ t.off1 ∧ t.off1 ≤ 51538819072
  sens1 : -8589672450 ≤ t.sens1 ∧ t.sens1 ≤ 17179606528
  temp : -227369 ≤ t.temp ∧ t.temp ≤ 133069
  off : -40800747534 ≤ t.off ∧ t.off ≤ 51538819072
  sens : -23621140496 ≤ t.sens ∧ t.sens ≤ 17179606528
  num : -396296952646598640 ≤ t.num ∧ t.num ≤ 288225952335659520
  q1 : -188969112704 ≤ t.q1 ∧ t.q1 ≤ 137436844032
  diff : -240507931776 ≤ t.diff ∧ t.diff ≤ 178237591566
  p : -7339719 ≤ t.p ∧ t.p ≤ 5439379

/-- The bounds of a difference. -/
theorem sub_bounds {a b alo ahi blo bhi : Int} (ha : alo ≤ a ∧ a ≤ ahi) (hb : blo ≤ b ∧ b ≤ bhi) :
    alo - bhi ≤ a - b ∧ a - b ≤ ahi - blo :=
  ⟨sub_le_sub ha.1 hb.2, sub_le_sub ha.2 hb.1⟩

/-- R90: every step's bounds follow from those of the steps before it. -/
theorem comp_withinTable (d1 d2 : RawCode) (cs : Coeffs) : WithinTable (comp false d1 d2 cs) := by
  set c := comp false d1 d2 cs
  have hdT : -16776960 ≤ c.dT ∧ c.dT ≤ 16777215 := compDT_bounds d2 cs
  have hn1 : -1099478073600 ≤ c.n1 ∧ c.n1 ≤ 1099494785025 := by
    have hmul := coef_mul_bounds cs[6] hdT
    rwa [mul_comm] at hmul
  have htemp1 : -129068 ≤ c.temp1 ∧ c.temp1 ≤ 133069 := compTemp1_bounds hn1
  have ht2 : 0 ≤ c.t2 ∧ c.t2 ≤ 98301 := compT2_bounds hdT.1 fun hlow => (neg_and_pos_of_low hlow).1
  have hoff2 : 0 ≤ c.off2 ∧ c.off2 ≤ 6442057734 := compOff2_bounds htemp1.1
  have hsens2 : 0 ≤ c.sens2 ∧ c.sens2 ≤ 15031468046 := compSens2_bounds htemp1.1
  have hoff1 : -34358689800 ≤ c.off1 ∧ c.off1 ≤ 51538819072 := compOff1_bounds cs hdT
  have hsens1 : -8589672450 ≤ c.sens1 ∧ c.sens1 ≤ 17179606528 := compSens1_bounds cs hdT
  have hoff : -40800747534 ≤ c.off ∧ c.off ≤ 51538819072 := sub_bounds hoff1 hoff2
  have hsens : -23621140496 ≤ c.sens ∧ c.sens ≤ 17179606528 := sub_bounds hsens1 hsens2
  have hnum : -396296952646598640 ≤ c.num ∧ c.num ≤ 288225952335659520 :=
    mul_bounds (uint_bounds d1) hsens (by decide) (by decide)
  have hq1 : -188969112704 ≤ c.q1 ∧ c.q1 ≤ 137436844032 := tdiv_between hnum (by decide) (by decide) (by decide)
  have hdiff : -240507931776 ≤ c.diff ∧ c.diff ≤ 178237591566 := sub_bounds hq1 hoff
  exact
    { dT := hdT, n1 := hn1, temp1 := htemp1, t2 := ht2, off2 := hoff2, sens2 := hsens2, off1 := hoff1, sens1 := hsens1
      temp := sub_bounds htemp1 ht2, off := hoff, sens := hsens, num := hnum, q1 := hq1, diff := hdiff
      p := tdiv_between hdiff (by decide) (by decide) (by decide) }

/-! ### The table of R90 and the widths of R91 -/

/-- E1, all coefficients at their largest and `D2` at its least: the attained minima of R90. -/
theorem comp_E1 : comp false 16777215 0 (Vector.replicate 8 65535) =
    { dT := -16776960, n1 := -1099478073600, temp1 := -129068, t2 := 98301, off2 := 6442057734, sens2 := 15031468046,
      off1 := -17179082760, sens1 := 131070, temp := -227369, off := -23621140494, sens := -15031336976,
      num := -252183972183801840, q1 := -120250688640, diff := -96629548146, p := -2948899 } := by decide

/-- E4, `C[2]`, `C[4]`, `C[6]` and `D2` at their largest, the others 0: the attained maxima of R90. -/
theorem comp_E4 : comp false 0 16777215 #v[0, 0, 65535, 0, 65535, 0, 65535, 0] =
    { dT := 16777215, n1 := 1099494785025, temp1 := 133069, t2 := 0, off2 := 0, sens2 := 0,
      off1 := 51538819072, sens1 := 0, temp := 133069, off := 51538819072, sens := 0,
      num := 0, q1 := 0, diff := -51538819072, p := -1572839 } := by decide

/-- Settles O45: the rows by `comp_withinTable`, the attained ends by the traces of E1 and E4 and two inputs more. -/
theorem intermediatesWithinBounds : Obligations.IntermediatesWithinBounds := by
  refine ⟨?bounds, ?minima, ?maxima, ?c3, ?x⟩
  case bounds =>
    intro d1 d2 cs c
    have h : WithinTable c := comp_withinTable d1 d2 cs
    refine ⟨h.dT, h.n1, h.temp1, fun hlow => ?low, h.t2, h.off2, h.sens2, coef_mul_bounds cs[4] h.dT,
      coef_mul_bounds cs[3] h.dT, h.off1, h.sens1, h.temp, h.off, h.sens, h.num, h.q1, h.diff, h.p, ?num⟩
    case low =>
      have htemp1 := h.temp1
      have hsq := low_square_bounds htemp1.1 hlow
      have hdT := low_dT_square_bounds h.dT.1 (neg_and_pos_of_low hlow).1
      rw [sq]
      omega
    case num =>
      have hnum := h.num
      omega
  case minima =>
    simp only [comp_E1]
    decide
  case maxima =>
    simp only [comp_E4]
    decide
  case c3 => exact ⟨0, 16777215, #v[0, 0, 0, 65535, 0, 0, 0, 0], by decide⟩
  case x => exact ⟨0, 0, #v[0, 0, 0, 0, 0, 32768, 1, 0], by decide⟩

/-- The square of a value lies between 0 and the square of its magnitude's bound. -/
theorem mul_self_bounds {x m : Int} (h : -m ≤ x ∧ x ≤ m) : 0 ≤ x * x ∧ x * x ≤ m * m :=
  ⟨mul_self_nonneg x, mul_self_le_mul_self_of_le_of_neg_le h.2 (neg_le.mp h.1)⟩

/-- A quotient of a value between bounds around 0 lies between them too. -/
theorem tdiv_bounds_of_bounds {n d lo hi : Int} (h : lo ≤ n ∧ n ≤ hi) (hlo : lo ≤ 0) (hhi : 0 ≤ hi) (hd : 0 < d) :
    lo ≤ tdiv n d ∧ tdiv n d ≤ hi := by
  unfold tdiv
  split
  case isTrue hn => exact ⟨hlo.trans (Int.ediv_nonneg hn hd.le), (Int.ediv_le_self d hn).trans h.2⟩
  case isFalse hn =>
    have hnonneg : 0 ≤ -n := by omega
    have hq := Int.ediv_nonneg hnonneg hd.le
    have hself := Int.ediv_le_self d hnonneg
    omega

theorem compFits_of_withinTable {t : CompTrace} (h : WithinTable t) : compFits t = true := by
  obtain ⟨-, -, -, -, -, hsens2, -, -, -, -, hsens, hnum, hq1, hdiff, -⟩ := h
  simp only [compFits, Bool.and_eq_true, fitsS64_iff]
  omega

/-- `dT^2` in either branch. -/
theorem dT_square_bounds {dT : Int} (h : -16776960 ≤ dT ∧ dT ≤ 16777215) :
    0 ≤ dT * dT ∧ dT * dT ≤ 281474943156225 :=
  mul_self_bounds (m := 16777215) (by omega)

/-- `x^2` in either branch. -/
theorem x_square_bounds {temp1 : Int} (h : -129068 ≤ temp1 ∧ temp1 ≤ 133069) :
    0 ≤ (temp1 - 2000) * (temp1 - 2000) ∧ (temp1 - 2000) * (temp1 - 2000) ≤ 17179082761 :=
  mul_self_bounds (m := 131069) (by omega)

/-- Settles O46: the table gives every named value; the products and squares are bounded by their factors, the quotients by
their numerators. -/
theorem narrowingLosesNothing : Obligations.NarrowingLosesNothing := by
  intro d1 d2 cs c x
  have h : WithinTable c := comp_withinTable d1 d2 cs
  refine ⟨?narrow, ?wide, h.temp, compFits_of_withinTable h⟩
  case narrow =>
    have hc5 := uint_bounds cs[5]
    obtain ⟨hdT, -, htemp1, ht2, -, -, -, -, htemp, -, -, -, -, -, hp⟩ := h
    refine fun v hv => trunc32_toInt ?_
    revert v
    simp only [List.forall_mem_cons, List.not_mem_nil, false_implies, implies_true, and_true]
    omega
  case wide =>
    have hc1 := uint_bounds cs[1]
    have hc2 := uint_bounds cs[2]
    have hc3 := coef_mul_bounds cs[3] h.dT
    have hc4 := coef_mul_bounds cs[4] h.dT
    have hdT2 := dT_square_bounds h.dT
    have hx2 : 0 ≤ x * x ∧ x * x ≤ 17179082761 := x_square_bounds h.temp1
    have hnum2 : 0 ≤ 3 * (c.dT * c.dT) ∧ 3 * (c.dT * c.dT) ≤ 844424829468675 := by omega
    have hq1 := tdiv_bounds_of_bounds (d := 8388608) h.n1 (by decide) (by decide) (by decide)
    have hq2 := tdiv_bounds_of_bounds (d := 8589934592) hnum2 (by decide) (by decide) (by decide)
    have hq3 := tdiv_bounds_of_bounds (d := 128) hc3 (by decide) (by decide) (by decide)
    have hq4 := tdiv_bounds_of_bounds (d := 32) hc4 (by decide) (by decide) (by decide)
    obtain ⟨-, hn1, htemp1, -, hoff2, hsens2, hoff1, hsens1, -, hoff, hsens, hnum, hq, hdiff, hp⟩ := h
    refine fun v hv => (fitsS64_iff v).mpr ?_
    revert v
    simp only [List.forall_mem_cons, List.not_mem_nil, false_implies, implies_true, and_true]
    omega

/-- Settles O48: three quotients, each non-decreasing, of a numerator that grows with `D1` as the sign of `SENS` says. -/
theorem pressureMonotoneInD1 : Obligations.PressureMonotoneInD1 := by
  intro d1 d1' d2 cs h
  have hle : uint d1 ≤ uint d1' := Int.ofNat_le.mpr h
  have hmono {num num' off : Int} (hnum : num ≤ num') : compP (compQ1 num - off) ≤ compP (compQ1 num' - off) :=
    tdiv_mono (by decide) (sub_le_sub_right (tdiv_mono (by decide) hnum) off)
  exact ⟨fun hs => hmono (mul_le_mul_of_nonneg_right hle hs), fun hs => hmono (mul_le_mul_of_nonpos_right hle hs)⟩

end Sys2Proof.Machine
end

section
/-! The compensation in the named widths (42_compensation_engine.md R89): the wrapping value of an integer is the integer's image
modulo the width, so that sums and products need no bound; comparison, sign extension and division need the operand to fit, which
R90 says it does. Each constant of the source is its own image, by `rfl`. -/

namespace Sys2Proof.Machine

/-! ### Wrapping operations on the images of integers -/

/-- Zero extension is the image of the unsigned value. -/
theorem setWidth_eq_ofInt_uint {n : Nat} (v : BitVec n) (m : Nat) : v.setWidth m = BitVec.ofInt m (uint v) := by
  rw [uint, BitVec.ofInt_natCast, BitVec.ofNat_toNat]

theorem ofInt_sub (n : Nat) (a b : Int) : BitVec.ofInt n (a - b) = BitVec.ofInt n a - BitVec.ofInt n b := by
  rw [Int.sub_eq_add_neg, BitVec.ofInt_add, BitVec.ofInt_neg, BitVec.sub_eq_add_neg]

/-- A value within signed 32 bits, read back. -/
theorem toInt_ofInt32 {v : Int} (h : -2 ^ 31 ≤ v ∧ v < 2 ^ 31) : (BitVec.ofInt 32 v).toInt = v :=
  trunc32_toInt h

/-- A value within signed 64 bits, read back. -/
theorem toInt_ofInt64 {v : Int} (h : -2 ^ 63 ≤ v ∧ v < 2 ^ 63) : (BitVec.ofInt 64 v).toInt = v :=
  BitVec.toInt_ofInt_eq_self (by decide) h.1 h.2

/-- Sign extension of a value that fits. -/
theorem signExtend_ofInt {v : Int} (h : -2 ^ 31 ≤ v ∧ v < 2 ^ 31) :
    (BitVec.ofInt 32 v).signExtend 64 = BitVec.ofInt 64 v := by
  rw [BitVec.signExtend, toInt_ofInt32 h]

/-- Narrowing is reduction modulo the smaller width. -/
theorem setWidth_ofInt (v : Int) : (BitVec.ofInt 64 v).setWidth 32 = BitVec.ofInt 32 v := by
  apply BitVec.eq_of_toNat_eq
  rw [BitVec.toNat_setWidth, BitVec.toNat_ofInt, BitVec.toNat_ofInt]
  omega

/-- Division of bit vectors toward zero is that of the integers, where both fit. -/
theorem sdiv_ofInt {n d : Int} (hn : -2 ^ 63 ≤ n ∧ n < 2 ^ 63) (hd : -2 ^ 63 ≤ d ∧ d < 2 ^ 63) :
    (BitVec.ofInt 64 n).sdiv (BitVec.ofInt 64 d) = BitVec.ofInt 64 (tdiv n d) := by
  apply BitVec.eq_of_toInt_eq
  rw [BitVec.toInt_sdiv, toInt_ofInt64 hn, toInt_ofInt64 hd, BitVec.toInt_ofInt, tdiv_eq_int_tdiv]

/-! ### The steps -/

section
variable {dT : Int} (hdT : -16776960 ≤ dT ∧ dT ≤ 16777215)
include hdT

theorem signExtend_dT : (BitVec.ofInt 32 dT).signExtend 64 = BitVec.ofInt 64 dT :=
  signExtend_ofInt (by omega)

theorem fixN1_ofInt (cs : Coeffs) : fixN1 (BitVec.ofInt 32 dT) cs = BitVec.ofInt 64 (compN1 dT cs) := by
  rw [fixN1, compN1, signExtend_dT hdT, setWidth_eq_ofInt_uint, BitVec.ofInt_mul]

theorem fixOff1_ofInt (cs : Coeffs) : fixOff1 (BitVec.ofInt 32 dT) cs = BitVec.ofInt 64 (compOff1 dT cs) := by
  have hmul := coef_mul_bounds cs[4] hdT
  rw [compOff1, BitVec.ofInt_add, BitVec.ofInt_mul, ← sdiv_ofInt (by omega) (by decide), BitVec.ofInt_mul, fixOff1,
    signExtend_dT hdT, setWidth_eq_ofInt_uint, setWidth_eq_ofInt_uint]
  rfl

theorem fixSens1_ofInt (cs : Coeffs) : fixSens1 (BitVec.ofInt 32 dT) cs = BitVec.ofInt 64 (compSens1 dT cs) := by
  have hmul := coef_mul_bounds cs[3] hdT
  rw [compSens1, BitVec.ofInt_add, BitVec.ofInt_mul, ← sdiv_ofInt (by omega) (by decide), BitVec.ofInt_mul, fixSens1,
    signExtend_dT hdT, setWidth_eq_ofInt_uint, setWidth_eq_ofInt_uint]
  rfl

end

theorem fixTemp1_ofInt {n1 : Int} (h : -1099478073600 ≤ n1 ∧ n1 ≤ 1099494785025) :
    fixTemp1 (BitVec.ofInt 64 n1) = BitVec.ofInt 32 (compTemp1 n1) := by
  rw [compTemp1, ← setWidth_ofInt, BitVec.ofInt_add, ← sdiv_ofInt (by omega) (by decide), fixTemp1]
  rfl

section
variable {temp1 : Int} (htemp1 : -129068 ≤ temp1 ∧ temp1 ≤ 133069)
include htemp1

theorem slt_temp1 : (BitVec.ofInt 32 temp1).slt 2000 = compLow temp1 := by
  rw [BitVec.slt_eq_decide, toInt_ofInt32 (by omega)]
  rfl

theorem fixX_ofInt : fixX (BitVec.ofInt 32 temp1) = BitVec.ofInt 64 (temp1 - 2000) := by
  rw [fixX, signExtend_ofInt (by omega), ofInt_sub]
  rfl

theorem fixOff2_ofInt : fixOff2 (BitVec.ofInt 32 temp1) = BitVec.ofInt 64 (compOff2 temp1) := by
  have hsq := x_square_bounds htemp1
  rw [fixOff2, compOff2, slt_temp1 htemp1, fixX_ofInt htemp1, apply_ite (BitVec.ofInt 64),
    ← sdiv_ofInt (by omega) (by decide), BitVec.ofInt_mul, BitVec.ofInt_mul]
  rfl

theorem fixSens2_ofInt : fixSens2 (BitVec.ofInt 32 temp1) = BitVec.ofInt 64 (compSens2 false temp1) := by
  have hsq := x_square_bounds htemp1
  rw [fixSens2, compSens2, compVlt_false, add_zero, slt_temp1 htemp1, fixX_ofInt htemp1, apply_ite (BitVec.ofInt 64),
    ← sdiv_ofInt (by omega) (by decide), BitVec.ofInt_mul, BitVec.ofInt_mul]
  rfl

theorem fixT2_ofInt {dT : Int} (hdT : -16776960 ≤ dT ∧ dT ≤ 16777215) :
    fixT2 (BitVec.ofInt 32 dT) (BitVec.ofInt 32 temp1) = BitVec.ofInt 32 (compT2 dT temp1) := by
  have hsq := dT_square_bounds hdT
  rw [fixT2, compT2, slt_temp1 htemp1, signExtend_dT hdT, apply_ite (BitVec.ofInt 32), ← setWidth_ofInt,
    ← sdiv_ofInt (by omega) (by decide), BitVec.ofInt_mul, BitVec.ofInt_mul]
  rfl

end

/-! ### The two results -/

section
variable (d1 d2 : RawCode) (cs : Coeffs)

theorem fixDT_eq : fixDT d2 cs = BitVec.ofInt 32 (comp false d1 d2 cs).dT := by
  change _ = BitVec.ofInt 32 (compDT d2 cs)
  rw [fixDT, compDT, ofInt_sub, BitVec.ofInt_mul, setWidth_eq_ofInt_uint, setWidth_eq_ofInt_uint]
  rfl

theorem fixTemp1_eq : fixTemp1 (fixN1 (fixDT d2 cs) cs) = BitVec.ofInt 32 (comp false d1 d2 cs).temp1 := by
  have h := comp_withinTable d1 d2 cs
  rw [fixDT_eq d1, fixN1_ofInt h.dT]
  exact fixTemp1_ofInt h.n1

theorem fixTemp_eq : fixTemp d2 cs = BitVec.ofInt 32 (comp false d1 d2 cs).temp := by
  have h := comp_withinTable d1 d2 cs
  simp only [fixTemp]
  rw [fixTemp1_eq d1, fixDT_eq d1, fixT2_ofInt h.temp1 h.dT, ← ofInt_sub]
  rfl

theorem fixOff_eq : fixOff1 (fixDT d2 cs) cs - fixOff2 (fixTemp1 (fixN1 (fixDT d2 cs) cs)) =
    BitVec.ofInt 64 (comp false d1 d2 cs).off := by
  have h := comp_withinTable d1 d2 cs
  rw [fixTemp1_eq d1, fixDT_eq d1, fixOff1_ofInt h.dT, fixOff2_ofInt h.temp1, ← ofInt_sub]
  rfl

theorem fixSens_eq : fixSens1 (fixDT d2 cs) cs - fixSens2 (fixTemp1 (fixN1 (fixDT d2 cs) cs)) =
    BitVec.ofInt 64 (comp false d1 d2 cs).sens := by
  have h := comp_withinTable d1 d2 cs
  rw [fixTemp1_eq d1, fixDT_eq d1, fixSens1_ofInt h.dT, fixSens2_ofInt h.temp1, ← ofInt_sub]
  rfl

theorem fixP_eq : fixP d1 d2 cs = BitVec.ofInt 64 (comp false d1 d2 cs).p := by
  obtain ⟨-, -, -, -, -, -, -, -, -, -, -, hnum, -, hdiff, -⟩ := comp_withinTable d1 d2 cs
  set c := comp false d1 d2 cs
  have hq1 : BitVec.ofInt 64 c.q1 = (d1.setWidth 64 * BitVec.ofInt 64 c.sens).sdiv 2097152 := by
    rw [setWidth_eq_ofInt_uint, ← BitVec.ofInt_mul]
    exact (sdiv_ofInt (n := c.num) (by omega) (by decide)).symm
  have hp : BitVec.ofInt 64 c.p = (BitVec.ofInt 64 c.q1 - BitVec.ofInt 64 c.off).sdiv 32768 := by
    rw [← ofInt_sub]
    exact (sdiv_ofInt (n := c.diff) (by omega) (by decide)).symm
  simp only [fixP]
  rw [fixOff_eq d1, fixSens_eq d1, hp, hq1]

end

/-- Settles O47: step by step the wrapping value is the image of the exact one, and the two results fit their widths. -/
theorem namedWidthsAgreeWithIntegers : Obligations.NamedWidthsAgreeWithIntegers := by
  intro d1 d2 cs
  have htemp := (comp_withinTable d1 d2 cs).temp
  have hp := (comp_withinTable d1 d2 cs).p
  rw [fixTemp_eq d1, fixP_eq]
  exact ⟨toInt_ofInt32 (by omega), toInt_ofInt64 (by omega)⟩

end Sys2Proof.Machine
end

section
/-! `CONV` (42_compensation_engine.md R71, R72, R82 and R92): when it is accepted, what it writes, and what that depends on. -/

namespace Sys2Proof.Machine

/-- R72: the three flags are all `CONV` asks for. -/
theorem exec_conv_of_ready {s : State} (hv : s.valid = true) (h1 : s.d1v = true) (h2 : s.d2v = true) :
    exec .conv s = .next (effect .conv s) :=
  exec_of_accepts (by simp [accepts, hv, h1, h2])

/-- R87, where the values fit. -/
theorem readingP_of_fits {pr : Params} {d1 d2 : RawCode} {cs : Coeffs} (h : compFits (comp pr.vltEn d1 d2 cs) = true) :
    readingP pr d1 d2 cs = BitVec.ofInt 32 (comp pr.vltEn d1 d2 cs).p :=
  if_pos h

/-- R87 at `VLT_EN` = 0: the values always fit (R90). -/
theorem readingP_of_not_vlt {pr : Params} (hvlt : pr.vltEn = false) (d1 d2 : RawCode) (cs : Coeffs) :
    readingP pr d1 d2 cs = BitVec.ofInt 32 (comp false d1 d2 cs).p := by
  have hfits := compFits_of_withinTable (comp_withinTable d1 d2 cs)
  rw [← hvlt] at hfits ⊢
  exact readingP_of_fits hfits

/-- R82: the optional step does not enter the temperature. -/
theorem readingTemp_eq (pr : Params) (d1 d2 : RawCode) (cs : Coeffs) :
    readingTemp pr d1 d2 cs = BitVec.ofInt 32 (comp false d1 d2 cs).temp := rfl

/-- Settles O20: a flag that is 0 refuses the command; with all three the reading is that of `comp`, which fits. -/
theorem convWritesReading : Obligations.ConvWritesReading := by
  refine ⟨decode_eq_ok_iff_eq_encode.mpr rfl, fun s hflag => ?refused, fun s hvlt hv h1 h2 => ?accepted⟩
  case refused =>
    have href : accepts .conv s = false := by
      rcases hflag with h | h | h <;> simp [accepts, h]
    exact exec_of_refused href
  case accepted =>
    rw [exec_conv_of_ready hv h1 h2, ← readingTemp_eq s.params, ← readingP_of_not_vlt hvlt]
    rfl

/-- Settles O21: the value written to `P` is the reading's, which is the narrowed `p` where the values fit. -/
theorem convCompletesForEitherVlt : Obligations.ConvCompletesForEitherVlt := fun s hv h1 h2 =>
  ⟨readingP s.params s.d1 s.d2 s.coef, exec_conv_of_ready hv h1 h2, readingP_of_fits⟩

/-- R94 (f): `C[1]` to `C[6]` are all the reading takes from the set. -/
theorem reading_congr {cs cs' : Coeffs} (h : ∀ idx : BitVec 3, idx ≠ 0 → idx ≠ 7 → coefAt cs idx = coefAt cs' idx)
    (pr : Params) (d1 d2 : RawCode) :
    readingTemp pr d1 d2 cs = readingTemp pr d1 d2 cs' ∧ readingP pr d1 d2 cs = readingP pr d1 d2 cs' := by
  have h1 : cs[1] = cs'[1] := h 1 (by decide) (by decide)
  have h2 : cs[2] = cs'[2] := h 2 (by decide) (by decide)
  have h3 : cs[3] = cs'[3] := h 3 (by decide) (by decide)
  have h4 : cs[4] = cs'[4] := h 4 (by decide) (by decide)
  have h5 : cs[5] = cs'[5] := h 5 (by decide) (by decide)
  have h6 : cs[6] = cs'[6] := h 6 (by decide) (by decide)
  have hcomp : comp pr.vltEn d1 d2 cs = comp pr.vltEn d1 d2 cs' := by
    simp only [comp, compDT, compN1, compOff1, compSens1, h1, h2, h3, h4, h5, h6]
  simp only [readingTemp, readingP, hcomp, h1, h2, h3, h4, h5, h6, and_self]

/-- Settles O49: both commands are accepted, and write readings of the same inputs. -/
theorem readingDependsOnlyOnItsInputs : Obligations.ReadingDependsOnlyOnItsInputs := by
  intro s s' t t' hv h1 h2 hv' h1' h2' hparams hd1 hd2 hcoef hexec hexec'
  obtain rfl := Host.Outcome.next.inj ((exec_conv_of_ready hv h1 h2).symm.trans hexec)
  obtain rfl := Host.Outcome.next.inj ((exec_conv_of_ready hv' h1' h2').symm.trans hexec')
  simp only [effect, writeReading_temp, writeReading_p, ← hparams, ← hd1, ← hd2]
  exact reading_congr hcoef s.params s.d1 s.d2

end Sys2Proof.Machine
end

section
/-! The two errors (60_exceptions.md R95 to R98, R103, R108): what raises them, that they steer nothing, and that a run without
reset keeps them. -/

namespace Sys2Proof.Machine

/-- Settles O4: the handshake cycle takes the presented word, which raises the error and nothing else. -/
theorem illegalWordSetsOnlyErrIll : Obligations.IllegalWordSetsOnlyErrIll := by
  intro s pin rest e hin hrst hv hd
  rw [step_of_cons hin, afterPort_of_word hrst hv, ← takeWord_eq_next]
  exact takeWord_of_error hd (setInput rest s)

/-! ### Refusal -/

/-- What a precondition decides, whatever the terms it is stated in. -/
theorem exec_of_precondition {i : Instr} {s : State} {pre : Prop} (hpre : accepts i s = true ↔ pre) :
    (¬pre → exec i s = .next { s with errSeq := true }) ∧ (pre → ∃ t, exec i s = .next t ∧ t.errSeq = s.errSeq) := by
  refine ⟨fun hnot => ?_, fun hp => ⟨effect i s, exec_of_accepts (hpre.mpr hp), effect_errSeq i s⟩⟩
  exact exec_of_refused (Bool.eq_false_iff.mpr (mt hpre.mp hnot))

/-- Settles O24: `accepts` is the list of preconditions, command by command. -/
theorem refusedExactlyByPrecondition : Obligations.RefusedExactlyByPrecondition := by
  intro i s
  apply exec_of_precondition
  cases i with
  | ldc idx w => simp [accepts]
  | crcv => simp [accepts]
  | conv => simp [accepts, and_assoc]
  | _ => exact iff_of_true rfl trivial

/-- A loaded flag set once more leaves a complete set complete. -/
theorem loaded_full {flags : BitVec 8} (h : flags = 0xFF) (idx : BitVec 3) : flags ||| (1#8 <<< idx.toNat) = 0xFF := by
  rw [h]
  exact BitVec.allOnes_or

/-- Settles O22: `CRCV` finds the two checksums different, so that `VALID` = 0 refuses `CONV` and lets `LDC` write. -/
theorem checksumMismatchIsNoError : Obligations.ChecksumMismatchIsNoError := by
  intro s hl hne
  have hcrcv : accepts .crcv s = true := by simp [accepts, hl]
  have hv : (effect .crcv s).valid = false := beq_eq_false_iff_ne.mpr hne
  have hconv : accepts .conv (effect .crcv s) = false := by simp [accepts, hv]
  have hmismatch : checksumMismatch (effect .crcv s) = true := by rw [checksumMismatch, hv]; rfl
  refine ⟨effect .crcv s, exec_of_accepts hcrcv, hmismatch, rfl, hv, rfl, rfl, rfl, rfl, exec_of_refused hconv,
    fun idx w => ?_⟩
  have hldc : accepts (.ldc idx w) (effect .crcv s) = true := by simp [accepts, hv]
  exact ⟨writeCoef idx w (effect .crcv s), exec_of_accepts hldc, rfl, coefAt_setCoef_same s.coef idx w,
    loaded_full hl idx⟩

/-! ### The error flags steer nothing -/

/-- No precondition reads an error flag. -/
@[simp] theorem accepts_withErrors (i : Instr) (seq ill : Bool) (s : State) :
    accepts i (withErrors seq ill s) = accepts i s := by
  cases i <;> rfl

/-- No accepted command reads or writes an error flag. -/
theorem effect_withErrors (i : Instr) (seq ill : Bool) (s : State) :
    effect i (withErrors seq ill s) = withErrors seq ill (effect i s) := by
  cases i <;> rfl

/-- Settles O26: the same commands are accepted, with the same effect; a refusal sets `ERR_SEQ`. -/
theorem errorFlagsSteerNothing : Obligations.ErrorFlagsSteerNothing := by
  intro i s t seq ill h
  obtain ⟨hacc, rfl⟩ | ⟨href, rfl⟩ := exec_cases h
  · rw [exec_of_accepts ((accepts_withErrors i seq ill s).trans hacc), effect_withErrors, hacc, Bool.not_true, Bool.or_false]
  · rw [exec_of_refused ((accepts_withErrors i seq ill s).trans href), href, Bool.not_false, Bool.or_true]
    rfl

/-! ### Runs without reset -/

/-- A presented word that raises neither error spells an accepted command. -/
theorem exists_accepted_of_no_error {pin : PortIn} {s : State} (hv : pin.cmdValid = true) (hseq : seqErrorOf pin s = false)
    (hill : illegalOf pin = false) : ∃ i, decode pin.cmd = .ok i ∧ accepts i s = true := by
  cases hd : decode pin.cmd with
  | ok i => exact ⟨i, rfl, by simpa [seqErrorOf, hv, hd] using hseq⟩
  | error e => simp [illegalOf, hv, hd] at hill

/-- What a cycle without reset leaves wrong: what was wrong before, or an error of its own. -/
theorem goneWrong_afterPort {pin : PortIn} (hrst : pin.rst = false) (s : State) :
    goneWrong (afterPort pin s) = (goneWrong s || (seqErrorOf pin s || illegalOf pin)) := by
  obtain ⟨hseq, hill⟩ := afterPort_errors hrst s
  rw [goneWrong, goneWrong, hseq, hill]
  ac_rfl

/-- A step consumes the next input, if there is one. -/
theorem input_of_step {s t : State} (h : step s = .next t) : t.input = s.input.tail := by
  obtain ⟨hin, rfl⟩ | ⟨pin, rest, hin, rfl⟩ := step_cases h
  · rw [hin, List.tail_nil]
  · rw [afterPort_setInput, setInput_input, hin, List.tail_cons]

/-- A run of at least one step takes its first step and goes on, read backwards. -/
theorem exists_step_of_run_succ {M : Host.Core} {k : Nat} {s t : M.State} (h : M.run (k + 1) s = .next t) :
    ∃ u, M.step s = .next u ∧ M.run k u = .next t := by
  cases hst : M.step s with
  | next u => exact ⟨u, rfl, (run_succ M k hst).symm.trans h⟩
  | fault r => simp [Host.Core.run, hst] at h
  | refused r => simp [Host.Core.run, hst] at h

/-- None of the next `k` inputs is a reset. -/
def NoReset (k : Nat) (s : State) : Prop := ∀ pin ∈ s.input.take k, pin.rst = false

/-- After a step one input less is ahead. -/
theorem NoReset.step {k : Nat} {s t : State} (h : NoReset (k + 1) s) (hst : step s = .next t) : NoReset k t := by
  intro pin hpin
  refine h pin ?_
  rw [input_of_step hst] at hpin
  cases hin : s.input with
  | nil => simp [hin] at hpin
  | cons q rest => exact List.mem_cons_of_mem q (by simpa [hin] using hpin)

/-- The input consumed next is among the inputs ahead. -/
theorem NoReset.head {k : Nat} {s : State} {pin : PortIn} {rest : List PortIn} (h : NoReset (k + 1) s)
    (hin : s.input = pin :: rest) : pin.rst = false :=
  h pin (by simp [hin])

/-- A step without reset that leaves nothing wrong found nothing wrong. -/
theorem not_goneWrong_of_step {k : Nat} {s t : State} (hno : NoReset (k + 1) s) (hst : step s = .next t)
    (ht : goneWrong t = false) : goneWrong s = false := by
  obtain ⟨-, rfl⟩ | ⟨pin, rest, hin, rfl⟩ := step_cases hst
  · exact ht
  · rw [goneWrong_afterPort (hno.head hin)] at ht
    exact (Bool.or_eq_false_iff.mp ht).1

/-- A run without reset that leaves nothing wrong found nothing wrong. -/
theorem not_goneWrong_of_run {k : Nat} {s t : State} (hrun : Host.Core.run Sys2Proof.core k s = .next t) (hno : NoReset k s)
    (ht : goneWrong t = false) : goneWrong s = false := by
  induction k generalizing s with
  | zero => exact (Host.Outcome.next.inj hrun : s = t) ▸ ht
  | succ k ih =>
    obtain ⟨u, hst, hrun'⟩ := exists_step_of_run_succ hrun
    exact not_goneWrong_of_step hno hst (ih hrun' (hno.step hst))

/-- A step without reset that leaves nothing wrong took no word but an accepted command's. -/
theorem exists_accepted_of_clean_step {s t : State} {pin : PortIn} {rest : List PortIn} (hin : s.input = pin :: rest)
    (hrst : pin.rst = false) (hv : pin.cmdValid = true) (hst : step s = .next t) (ht : goneWrong t = false) :
    ∃ i, decode pin.cmd = .ok i ∧ accepts i s = true := by
  rw [next_of_step_cons hin hst, goneWrong_afterPort hrst, seqErrorOf_setInput] at ht
  obtain ⟨hseq, hill⟩ := Bool.or_eq_false_iff.mp (Bool.or_eq_false_iff.mp ht).2
  exact exists_accepted_of_no_error hv hseq hill

/-- Settles O35, by induction on the run: its first step leaves nothing wrong, since the rest of the run does not; a later moment
is one of the rest. -/
theorem cleanRunRefusedNothing : Obligations.CleanRunRefusedNothing := by
  intro k s t hrun hno ht j u pin rest hjk hj hin hv
  induction k generalizing s j with
  | zero => exact absurd hjk (Nat.not_lt_zero j)
  | succ k ih =>
    obtain ⟨s', hst, hrest⟩ := exists_step_of_run_succ hrun
    have hno' : NoReset k s' := NoReset.step hno hst
    cases j with
    | zero =>
      obtain rfl : s = u := Host.Outcome.next.inj hj
      exact exists_accepted_of_clean_step hin (NoReset.head hno hin) hv hst (not_goneWrong_of_run hrest hno' ht)
    | succ j =>
      have hj' : Host.Core.run Sys2Proof.core j s' = .next u := (run_succ Sys2Proof.core j hst).symm.trans hj
      exact ih s' hrest hno' j (Nat.lt_of_succ_lt_succ hjk) hj'

end Sys2Proof.Machine
end

section
/-! Steps of the untimed machine (70_reset_and_hazards.md R110, R115, R120): every state has a next one, the parameters stay, and
nothing happens without a command. -/

namespace Sys2Proof.Machine

/-- Settles O29: with or without an input ahead, a step answers a next state. -/
theorem everyStepCompletes : Obligations.EveryStepCompletes := by
  intro s
  cases hin : s.input with
  | nil => exact ⟨s, step_of_nil hin⟩
  | cons pin rest => exact ⟨afterPort pin (setInput rest s), step_of_cons hin⟩

/-- Settles O5: a cycle that neither resets nor presents a word leaves the block alone. -/
theorem noCommandNoChange : Obligations.NoCommandNoChange := by
  refine ⟨fun s hin => step_of_nil hin, fun s pin rest hin hrst hv => ?_⟩
  rw [step_of_cons hin, afterPort_of_idle hrst hv]
  rfl

@[simp] theorem afterWord_params (cmd : Word) (s : State) : (afterWord cmd s).params = s.params := by
  obtain ⟨i, -, -, hw⟩ | ⟨i, -, -, hw⟩ | ⟨e, -, hw⟩ := afterWord_cases cmd s <;> simp [hw]

@[simp] theorem afterPort_params (pin : PortIn) (s : State) : (afterPort pin s).params = s.params := by
  unfold afterPort
  split
  · exact resetBlock_params s
  · split
    · exact afterWord_params pin.cmd s
    · rfl

/-- Settles O30: neither a taken word nor a reset writes the parameters. -/
theorem parametersNeverChange : Obligations.ParametersNeverChange := by
  intro s t h
  obtain ⟨-, rfl⟩ | ⟨pin, rest, -, rfl⟩ := step_cases h
  · rfl
  · exact afterPort_params pin (setInput rest s)

end Sys2Proof.Machine
end

section
/-! The handshake cycle by cycle (70_reset_and_hazards.md R109, R115, R116, R118): one equation per thing a cycle can do, and what
follows for a command in progress. -/

namespace Sys2Proof.Machine

/-! ### One cycle -/

/-- R109: reset abandons a command in progress. -/
theorem cycle_of_rst {pin : PortIn} (hrst : pin.rst = true) (t : Timed) :
    cycle pin t = .next { t with arch := resetBlock t.arch, busy := none } := by
  rw [cycle, if_pos hrst]

/-- A free block with no word presented waits. -/
theorem cycle_of_idle {pin : PortIn} {t : Timed} (hb : t.busy = none) (hrst : pin.rst = false) (hv : pin.cmdValid = false) :
    cycle pin t = .next t := by
  simp [cycle, hb, hrst, hv]

/-- R115: a free block takes the presented word. -/
theorem cycle_of_word {pin : PortIn} {t : Timed} (hb : t.busy = none) (hrst : pin.rst = false) (hv : pin.cmdValid = true) :
    cycle pin t = .next { t with busy := some ⟨pin.cmd, latency pin.cmd t.arch, 0⟩, taken := t.taken + 1 } := by
  simp [cycle, hb, hrst, hv]

/-- R116: the last cycle of a command makes all its writes. -/
theorem cycle_of_last {pin : PortIn} {t : Timed} {b : InFlight} (hb : t.busy = some b) (hrst : pin.rst = false)
    (hlast : b.left ≤ 1) : cycle pin t = .next { t with arch := afterWord b.cmd t.arch, busy := none } := by
  simp [cycle, hb, hrst, hlast, takeWord_eq_next, Timed.lift]

/-- Every cycle before the last only counts. -/
theorem cycle_of_counting {pin : PortIn} {t : Timed} {b : InFlight} (hb : t.busy = some b) (hrst : pin.rst = false)
    (hleft : 1 < b.left) : cycle pin t = .next { t with busy := some ⟨b.cmd, b.left - 1, b.elapsed + 1⟩ } := by
  simp [cycle, hb, hrst, Nat.not_le.mpr hleft]

/-- Settles O50: neither the counting cycles nor the last one look at the port. -/
theorem busyBlockIgnoresPresentedWord : Obligations.BusyBlockIgnoresPresentedWord := by
  intro t b pin valid cmd hb hrst
  refine ⟨by simp [Timed.ready, hb], ?_⟩
  rcases Nat.lt_or_ge 1 b.left with hleft | hlast
  · rw [cycle_of_counting hb hrst hleft]
    exact cycle_of_counting hb hrst hleft
  · rw [cycle_of_last hb hrst hlast]
    exact cycle_of_last hb hrst hlast

/-! ### The outputs -/

theorem shown_of_free {t : Timed} (hb : t.busy = none) (port : OutPort) : t.shown port = t.arch := by
  simp only [Timed.shown, hb]

/-- R116: the old state before the output's switching time, the new one from then on. -/
theorem shown_of_busy {t : Timed} {b : InFlight} (hb : t.busy = some b) (port : OutPort) :
    t.shown port = if b.elapsed < Config.switchAfter port t.taken then t.arch else afterWord b.cmd t.arch := by
  simp only [Timed.shown, hb, takeWord_eq_next]

/-- Every output port drives the register of the state it shows. -/
theorem portShows_outputs (t : Timed) (pin : PortIn) (port : OutPort) :
    portShows port pin.cSel (t.shown port) (t.outputs pin) := by
  cases port <;> exact rfl

/-- Settles O52: what is shown by `shown_of_busy`, the further cycle by whether it is the command's last. -/
theorem outputsShowOldOrNewState : Obligations.OutputsShowOldOrNewState := by
  refine ⟨fun t pin hb => ?free, fun t b a pin hb ha => ?busy⟩
  case free => simp [Timed.outputs, Timed.ready, outputs, shown_of_free hb, hb]
  case busy =>
    obtain rfl : afterWord b.cmd t.arch = a := Host.Outcome.next.inj ((takeWord_eq_next b.cmd t.arch).symm.trans ha)
    refine ⟨by simp [Timed.outputs, Timed.ready, hb], fun port => ⟨shown_of_busy hb port, ?_⟩, fun hrst => ?_⟩
    · rw [← shown_of_busy hb port]
      exact portShows_outputs t pin port
    · split
      case isTrue hlast => exact ⟨_, cycle_of_last hb hrst hlast, rfl, rfl⟩
      case isFalse hleft => exact ⟨_, cycle_of_counting hb hrst (Nat.not_le.mp hleft), rfl, rfl, rfl⟩

/-! ### The latency -/

/-- R118: every latency is at least 1. -/
theorem latency_pos (cmd : Word) (s : State) : 0 < latency cmd s := by
  have hload : 0 < latLoad := Nat.succ_pos _
  have hcrcv : 0 < latCrcv := Nat.succ_pos _
  have hconv : 0 < latConv := Nat.succ_pos _
  unfold latency
  split
  · split <;> assumption
  · split <;> assumption
  · exact hload

/-- A trace goes on from where its first cycle leads. -/
theorem cycles_cons {pin : PortIn} {t t' : Timed} (h : cycle pin t = .next t') (pins : List PortIn) :
    cycles (pin :: pins) t = cycles pins t' := by
  simp only [cycles, h]

/-- Fewer cycles than are left, none of them a reset, and the command is still in progress, nothing written. -/
theorem cycles_of_lt_left {pins : List PortIn} {t : Timed} {b : InFlight} (hb : t.busy = some b)
    (hno : ∀ q ∈ pins, q.rst = false) (hlt : pins.length < b.left) :
    ∃ u, cycles pins t = .next u ∧ u.busy.isSome = true ∧ u.arch = t.arch := by
  induction pins generalizing t b with
  | nil => exact ⟨t, rfl, by simp [hb], rfl⟩
  | cons pin pins ih =>
    obtain ⟨hrst, hno⟩ := List.forall_mem_cons.mp hno
    rw [List.length_cons] at hlt
    rw [cycles_cons (cycle_of_counting hb hrst (by omega))]
    exact ih rfl hno (Nat.lt_sub_of_add_lt hlt)

/-- As many cycles as are left, none of them a reset, and the command has completed. -/
theorem cycles_of_eq_left {pins : List PortIn} {t : Timed} {b : InFlight} (hb : t.busy = some b) (hpos : 0 < b.left)
    (hno : ∀ q ∈ pins, q.rst = false) (heq : pins.length = b.left) :
    cycles pins t = .next { t with arch := afterWord b.cmd t.arch, busy := none } := by
  induction pins generalizing t b with
  | nil => exact absurd heq hpos.ne
  | cons pin pins ih =>
    obtain ⟨hrst, hno⟩ := List.forall_mem_cons.mp hno
    rw [List.length_cons] at heq
    rcases Nat.lt_or_ge 1 b.left with hleft | hlast
    · rw [cycles_cons (cycle_of_counting hb hrst hleft)]
      exact ih (b := ⟨b.cmd, b.left - 1, b.elapsed + 1⟩) rfl (Nat.sub_pos_of_lt hleft) hno (Nat.eq_sub_of_add_eq heq)
    · obtain rfl : pins = [] := List.eq_nil_of_length_eq_zero (by omega)
      rw [cycles_cons (cycle_of_last hb hrst hlast)]
      rfl

/-- Settles O51: the latency by command, of which `CRCV` and `CONV` alone have their own; the first cycle takes the word with its
latency left, the others count it down. -/
theorem commandCompletesAfterItsLatency : Obligations.CommandCompletesAfterItsLatency := by
  refine ⟨⟨Nat.succ_pos _, Nat.succ_pos _, Nat.succ_pos _⟩, fun cmd s => ?byCommand,
    fun t pin pins hb hrst hv hno => ?counted⟩
  case byCommand =>
    unfold latency
    cases decode cmd with
    | error e => rfl
    | ok i =>
      cases i with
      | crcv => rfl
      | conv => rfl
      | _ => exact (ite_self latLoad).symm
  case counted =>
    rw [cycles_cons (cycle_of_word hb hrst hv)]
    refine ⟨fun hlt => cycles_of_lt_left rfl hno hlt, fun heq => ?_⟩
    exact ⟨_, afterWord pin.cmd t.arch, takeWord_eq_next _ _, cycles_of_eq_left rfl (latency_pos _ _) hno heq, rfl, rfl⟩

end Sys2Proof.Machine
end

section
/-! The cycle-level block refines `step` (70_reset_and_hazards.md R115, R116; 00_scope.md R11). The architecture has taken the
visible cycles less those the block still owes it: none when it is free, the one that presented the word in progress when not. -/

namespace Sys2Proof.Machine

/-- The state the untimed machine reaches on a list of inputs. -/
def afterPorts (pins : List PortIn) (s : State) : State := pins.foldl (fun s pin => afterPort pin s) s

theorem afterPorts_append (pins pins' : List PortIn) (s : State) :
    afterPorts (pins ++ pins') s = afterPorts pins' (afterPorts pins s) :=
  List.foldl_append

/-- A run over the next inputs reaches the state after them, the further ones left ahead. -/
theorem run_eq_afterPorts (pins rest : List PortIn) (s : State) :
    Host.Core.run Sys2Proof.core pins.length (setInput (pins ++ rest) s) = .next (setInput rest (afterPorts pins s)) := by
  induction pins generalizing s with
  | nil => rfl
  | cons pin pins ih =>
    rw [List.length_cons, run_succ_of_cons _ rfl, setInput_setInput, afterPort_setInput]
    exact ih (afterPort pin s)

@[simp] theorem afterPort_input (pin : PortIn) (s : State) : (afterPort pin s).input = s.input := by
  simpa using congrArg State.input (afterPort_setInput pin s.input s)

/-- Reset forgets what a cycle before it did. -/
theorem resetBlock_afterPort (pin : PortIn) (s : State) : resetBlock (afterPort pin s) = resetBlock s := by
  rw [resetBlock, afterPort_params, afterPort_input]
  rfl

/-- The visible cycles the block has not carried out: those of the command in progress, if there is one. -/
def Owes (t : Timed) (owed : List PortIn) : Prop :=
  (t.busy = none ∧ owed = []) ∨
    ∃ b q, t.busy = some b ∧ owed = [q] ∧ q.rst = false ∧ q.cmdValid = true ∧ q.cmd = b.cmd

theorem Owes.of_free {t : Timed} (hb : t.busy = none) : Owes t [] := .inl ⟨hb, rfl⟩

theorem Owes.of_busy {t : Timed} {b : InFlight} {q : PortIn} (hb : t.busy = some b) (hrst : q.rst = false)
    (hv : q.cmdValid = true) (hcmd : q.cmd = b.cmd) : Owes t [q] :=
  .inr ⟨b, q, hb, rfl, hrst, hv, hcmd⟩

theorem Owes.length_eq {t : Timed} {owed : List PortIn} (h : Owes t owed) :
    owed.length = if t.busy.isSome then 1 else 0 := by
  obtain ⟨hb, rfl⟩ | ⟨b, q, hb, rfl, -⟩ := h <;> simp [hb]

/-- Reset forgets what the block owes. -/
theorem Owes.resetBlock_eq {t : Timed} {owed : List PortIn} (h : Owes t owed) (s : State) :
    resetBlock (afterPorts owed s) = resetBlock s := by
  obtain ⟨-, rfl⟩ | ⟨b, q, -, rfl, -⟩ := h
  · rfl
  · exact resetBlock_afterPort q s

/-- What the architecture sees of one cycle. -/
def seen (pin : PortIn) (t : Timed) : List PortIn := if pin.rst || t.busy.isNone then [pin] else []

theorem visible_cons {pin : PortIn} {t t' : Timed} (h : cycle pin t = .next t') (pins : List PortIn) :
    visible (pin :: pins) t = seen pin t ++ visible pins t' := by
  simp only [visible, seen, h]
  split <;> rfl

/-- The commuting diagram of one cycle: of what was owed and what is seen, the architecture takes the first part, and the block
owes the rest. -/
theorem cycle_refines {t : Timed} {owed : List PortIn} (h : Owes t owed) (pin : PortIn) :
    ∃ t' done rest, cycle pin t = .next t' ∧ Owes t' rest ∧ owed ++ seen pin t = done ++ rest ∧
      t'.arch = afterPorts done t.arch := by
  cases hrst : pin.rst with
  | true =>
    refine ⟨_, owed ++ [pin], [], cycle_of_rst hrst t, .of_free rfl, by simp [seen, hrst], ?_⟩
    calc resetBlock t.arch
        = resetBlock (afterPorts owed t.arch) := (h.resetBlock_eq t.arch).symm
      _ = afterPort pin (afterPorts owed t.arch) := (afterPort_of_rst hrst _).symm
      _ = afterPorts (owed ++ [pin]) t.arch := (afterPorts_append owed [pin] t.arch).symm
  | false =>
    obtain ⟨hb, rfl⟩ | ⟨b, q, hb, rfl, hq, hqv, hcmd⟩ := h
    · have hseen : [] ++ seen pin t = [pin] := by simp [seen, hb]
      cases hv : pin.cmdValid with
      | true => exact ⟨_, [], [pin], cycle_of_word hb hrst hv, .of_busy rfl hrst hv rfl, hseen, rfl⟩
      | false => exact ⟨_, [pin], [], cycle_of_idle hb hrst hv, .of_free hb, hseen, (afterPort_of_idle hrst hv _).symm⟩
    · have hseen : [q] ++ seen pin t = [q] := by simp [seen, hb, hrst]
      rcases Nat.lt_or_ge 1 b.left with hleft | hlast
      · exact ⟨_, [], [q], cycle_of_counting hb hrst hleft, .of_busy rfl hq hqv hcmd, hseen, rfl⟩
      · refine ⟨_, [q], [], cycle_of_last hb hrst hlast, .of_free rfl, hseen, ?_⟩
        rw [← hcmd]
        exact (afterPort_of_word hq hqv t.arch).symm

/-- The diagrams of a trace's cycles, one after another. -/
theorem cycles_refine {t : Timed} {owed : List PortIn} (h : Owes t owed) (pins : List PortIn) :
    ∃ u done rest, cycles pins t = .next u ∧ Owes u rest ∧ owed ++ visible pins t = done ++ rest ∧
      u.arch = afterPorts done t.arch := by
  induction pins generalizing t owed with
  | nil => exact ⟨t, [], owed, rfl, h, List.append_nil owed, rfl⟩
  | cons pin pins ih =>
    obtain ⟨t', done, mid, hcycle, hmid, hsplit, harch⟩ := cycle_refines h pin
    obtain ⟨u, done', rest, hcycles, hrest, hsplit', harch'⟩ := ih hmid
    refine ⟨u, done ++ done', rest, (cycles_cons hcycle pins).trans hcycles, hrest, ?_, ?_⟩
    · rw [visible_cons hcycle, ← List.append_assoc, hsplit, List.append_assoc, hsplit', List.append_assoc]
    · rw [harch', harch, afterPorts_append]

/-- Settles O53: a free block owes nothing, so the visible cycles are those `step` has taken and at most one owed. -/
theorem handshakeRefinesStep : Obligations.HandshakeRefinesStep := by
  intro pins t hb
  obtain ⟨u, done, rest, hcycles, hrest, hsplit, harch⟩ := cycles_refine (.of_free hb) pins
  rw [List.nil_append] at hsplit
  refine ⟨u, rest, hcycles, hrest.length_eq, ⟨done, hsplit.symm⟩, ?_⟩
  rw [hsplit, harch, List.length_append, Nat.add_sub_cancel]
  exact run_eq_afterPorts done rest t.arch

end Sys2Proof.Machine
end

section
/-! The decoder and the encoder are inverse to each other on the legal words (30_encoding.md R45, R50), and what that gives of the
listed words (95_test_vectors.md section 2). -/

namespace Sys2Proof

/-- Settles O10: among all words the encoding is the one that decodes to the command. -/
theorem encodeThenDecode : Obligations.EncodeThenDecode := fun _ => decode_eq_ok_iff_eq_encode.mpr rfl

/-- Settles O11: a word that decodes to the command is its encoding. -/
theorem decodeThenEncode : Obligations.DecodeThenEncode := fun _ _ h => (decode_eq_ok_iff_eq_encode.mp h).symm

/-- Settles O6: W1 to W11 are encodings, each read back as its command; W12 to W21 match no row and fall under their cases of
R46, ten closed evaluations. -/
theorem specWordsDecodeAsListed : Obligations.SpecWordsDecodeAsListed := by
  refine ⟨encodeThenDecode .nop, encodeThenDecode .clr, encodeThenDecode (.ldc 0 0x3132), encodeThenDecode (.ldc 3 0x7437),
    encodeThenDecode (.ldc 7 0xFFFF), encodeThenDecode (.ldd1 0x41C9FE), encodeThenDecode (.ldd1 0xFFFFFF),
    encodeThenDecode (.ldd2 0x7FFAE4), encodeThenDecode (.ldd2 0), encodeThenDecode .crcv, encodeThenDecode .conv, ?illegal⟩
  case illegal => decide

end Sys2Proof
end

section
/-! Steps and cycles that reset (70_reset_and_hazards.md R109, R110), and I6 for a step of any state (10_state.md section 10). -/

namespace Sys2Proof.Machine

/-- Settles O2: with `rst` = 1 the step and the cycle both reset, whatever is presented or in progress. -/
theorem resetCycleLeavesResetState : Obligations.ResetCycleLeavesResetState := by
  refine ⟨fun s pin rest hin hrst => ⟨?next, ?notReady⟩, fun t pin hrst => cycle_of_rst hrst t⟩
  case next => rw [step_of_cons hin, afterPort_of_rst hrst]; rfl
  case notReady => simp [outputs, hrst]

/-- Settles O33: a step without input changes nothing; one with an input is a reset, a `CLR`, or keeps the set. -/
theorem validatedSetIsImmutable : Obligations.ValidatedSetIsImmutable := by
  intro s t hst hv
  obtain ⟨-, rfl⟩ | ⟨pin, rest, hin, rfl⟩ := step_cases hst
  · exact .inl rfl
  · by_cases hwrites : pin.rst = true ∨ (pin.cmdValid = true ∧ decode pin.cmd = .ok .clr)
    · exact .inr ⟨pin, rest, hin, hwrites⟩
    · obtain ⟨hrst, hclr⟩ := not_or.mp hwrites
      exact .inl (afterPort_coef_of_valid (s := setInput rest s) hv (Bool.eq_false_iff.mpr hrst) hclr)

end Sys2Proof.Machine
end
